-- ==== Sys2Proof/Word.lean ====
section
/-! DEFINITION. The data types KATE-8 is made of (00_scope.md R8, R11, R12; 10_state.md R42): words, nibbles, colours,
cell addresses, memories held as lists of cells, and the names of the sixteen opcodes. -/

namespace Sys2Proof

/-- An 8-bit unsigned value, the machine's data unit (R8, R12). Bit 0 is the least significant (R11). -/
abbrev Word := BitVec 8

/-- A 4-bit value: an opcode or a short operand (R8). -/
abbrev Nibble := BitVec 4

/-- A 2-bit colour index (R8, R42). -/
abbrev Color := BitVec 2

/-- The address of one of a plane's 64 cells (R42, R43). -/
abbrev CellAddr := BitVec 6

/-- Storage of `w`-bit entries by address: a list of (address, value) pairs. Its canonical form is `Cells.wf`
(Machine/Ops.lean); an address that is not listed reads as 0, the reset contents of every memory (R64, R42). -/
abbrev Cells (w : Nat) := List (Nat × BitVec w)

/-- A memory of Words (`Host.Cell` pairs): the ROM and the RAM (20_memory.md R60, R63). -/
abbrev Memory := Cells 8

/-- One frame-buffer plane: 64 cells of 2 bits (R42, R67). -/
abbrev Plane := Cells 2

/-- The sixteen opcodes by name, in the order of the opcode map (30_encoding.md R90). -/
inductive Opcode where
  | nop | ldr | ldm | inc | dec | ldi | ldbi | addr
  | subr | inp | out | outb | jmpi | call | ret | stop
deriving DecidableEq, Repr

end Sys2Proof
end

