-- ==== Sys2Proof/Config.lean ====
section
/-! DEFINITION. What is fixed for the machine (00_scope.md R8, R9) and the one free value, the input word. -/

namespace Sys2Proof.Config

/-- The free 8-bit input of a tick, by the number of input samples taken before it (20_memory.md R72,
10_state.md R45: "A model gives each tick a free 8-bit input and assumes nothing about how it relates to the input of
another tick"). It has no body: no proof can know a value of it. Log 1. -/
opaque freeInput : Nat → Word

/-- The word the host drives on `in_word` where it gives none: INPUT's default (R9, R72: "its default is 0"; decision D15). -/
abbrev defaultInput : Word := 0#8

/-- RAM_SIZE (R8). -/
abbrev ramSize : Nat := 256

/-- The largest ROM image accepted, in words (R9, decision D4). -/
abbrev romCapacity : Nat := 256

/-- CELLS_PER_PLANE (R8). -/
abbrev cellsPerPlane : Nat := 64

end Sys2Proof.Config
end

