-- ==== Sys2Proof/Syntax.lean ====
section
/-! DEFINITION. The instructions: one constructor per row of spec/opcode_table.json, carrying the fields the row's "Uses"
column names (30_encoding.md R90). Fields an instruction does not use are ignored (R92) and are no part of it. -/

namespace Sys2Proof

/-- The sixteen instructions of KATE-8 (R90). `opd` is the 4-bit short operand (R87), `imm` the 8-bit immediate (R88). -/
inductive Instr where
  | nop
  | ldr (opd : Nibble)
  | ldm (opd : Nibble)
  | inc
  | dec
  | ldi (imm : Word)
  | ldbi (imm : Word)
  | addr
  | subr
  | inp
  | out
  | outb (imm : Word)
  | jmpi (opd : Nibble)
  | call (opd : Nibble)
  | ret
  | stop
deriving DecidableEq, Repr

end Sys2Proof
end

