-- ==== Sys2Proof/WellFormed.lean ====
section
/-! DEFINITION. The checks of well-formedness. An `Instr` needs none: the width of each field is its type, so every term of
`Instr` is an instruction (30_encoding.md R87, R88, R91). What can be ill-formed is an assembly line (R105) and the length
of a ROM image (R100). -/

namespace Sys2Proof

/-- The operand of an assembly line (R105): none, `n` (a bare number), or `#v`. -/
inductive AsmOperand where
  | none
  | opd (n : Nat)
  | imm (v : Nat)
deriving DecidableEq, Repr

/-- Which field of the slot an instruction reads: the "Uses" column of R90. -/
inductive FieldUse where
  | nothing | opd | imm
deriving DecidableEq, Repr

/-- The "Uses" column of the opcode map (R90). -/
def Opcode.uses : Opcode → FieldUse
  | .nop => .nothing
  | .ldr => .opd
  | .ldm => .opd
  | .inc => .nothing
  | .dec => .nothing
  | .ldi => .imm
  | .ldbi => .imm
  | .addr => .nothing
  | .subr => .nothing
  | .inp => .nothing
  | .out => .nothing
  | .outb => .imm
  | .jmpi => .opd
  | .call => .opd
  | .ret => .nothing
  | .stop => .nothing

/-- One assembly line, as its parts (R105): the mnemonic, the operand, and the comment a disassembler appends for
unused fields that are not zero (R107: `; opd=n imm=vv`). -/
structure AsmLine where
  mnemonic : Opcode
  operand : AsmOperand
  comment : Option (Nibble × Word) := none
deriving DecidableEq, Repr

/-- The operand is of the kind the mnemonic uses (R105: "rejects an operand that the mnemonic does not use"). -/
def AsmLine.operandUsed (l : AsmLine) : Bool :=
  match l.mnemonic.uses, l.operand with
  | .nothing, .none => true
  | .opd, .opd _ => true
  | .imm, .imm _ => true
  | _, _ => false

/-- The operand fits its field (R105: "or that does not fit its field"). -/
def AsmLine.operandFits (l : AsmLine) : Bool :=
  match l.operand with
  | .none => true
  | .opd n => n < 16
  | .imm v => v < 256

/-- A line the assembler accepts (R105). -/
def AsmLine.wf (l : AsmLine) : Bool := l.operandUsed && l.operandFits

/-- The length of an image that loads: not 0, even, at most the ROM's capacity (R100 cases 4 to 6, decisions D4, D5). -/
def romLengthOk (len : Nat) : Bool := len != 0 && len % 2 == 0 && decide (len ≤ Config.romCapacity)

end Sys2Proof
end

