-- ==== Sys2Proof/Decode.lean ====
section
/-! DEFINITION. The decoder, total on any list of words, and the encoder (30_encoding.md R85 to R95). -/

namespace Sys2Proof

/-- OPC = CW[7:4] (R86). -/
def opcOf (cw : Word) : Nibble := cw.extractLsb' 4 4

/-- OPD = CW[3:0] (R86). -/
def opdOf (cw : Word) : Nibble := cw.extractLsb' 0 4

/-- The opcode map, code 0000 first (R90). -/
def opcodeTable : Vector Opcode 16 :=
  #v[.nop, .ldr, .ldm, .inc, .dec, .ldi, .ldbi, .addr, .subr, .inp, .out, .outb, .jmpi, .call, .ret, .stop]

/-- The opcode a 4-bit code selects: each of the 16 values selects exactly one (R90, R91). -/
def Opcode.ofBits (opc : Nibble) : Opcode := opcodeTable[opc.toFin]

/-- The instruction in a slot `CW IMM` (R86, R90, R91, R113). It looks at OPC alone to choose the instruction, and cannot
fail. -/
def decodeSlot (cw imm : Word) : Instr :=
  match Opcode.ofBits (opcOf cw) with
  | .nop => .nop
  | .ldr => .ldr (opdOf cw)
  | .ldm => .ldm (opdOf cw)
  | .inc => .inc
  | .dec => .dec
  | .ldi => .ldi imm
  | .ldbi => .ldbi imm
  | .addr => .addr
  | .subr => .subr
  | .inp => .inp
  | .out => .out
  | .outb => .outb imm
  | .jmpi => .jmpi (opdOf cw)
  | .call => .call (opdOf cw)
  | .ret => .ret
  | .stop => .stop

/-- Why a list of words holds no instruction at its head. No opcode is refused: all 16 are assigned (R91, R93). -/
inductive DecodeRefusal where
  /-- Raised by `decodeWords` on the empty list. Safe: there is no slot to read (R85). -/
  | noControlWord
  /-- Raised by `decodeWords` on one word. Safe: a slot lacks its immediate (R85, R100 case 4). -/
  | noImmediate
deriving DecidableEq, Repr

/-- The first instruction of a list of words and the words after it (R85: every slot is two words, R94). -/
def decodeWords : List Word → Except DecodeRefusal (Instr × List Word)
  | [] => .error .noControlWord
  | [_] => .error .noImmediate
  | cw :: imm :: rest => .ok (decodeSlot cw imm, rest)

/-- The two words of a 16-bit slot value S, control word first (R89: OPC = S[15:12], OPD = S[11:8], IMM = S[7:0]). -/
def slotWords (slot : BitVec 16) : List Word := [slot.extractLsb' 8 8, slot.extractLsb' 0 8]

/-- The slot value whose low `nbits` bits are those of `w`, as spec/opcode_table.json numbers them; the others are 0. -/
def slotOfTableWord (nbits w : Nat) : BitVec 16 := BitVec.ofNat 16 (w % 2 ^ nbits)

/-- What the decoder reads from a word of spec/opcode_table.json (R89). Log 10. -/
def decodeTableWord (nbits w : Nat) : Option Instr :=
  match decodeWords (slotWords (slotOfTableWord nbits w)) with
  | .ok (i, _) => some i
  | .error _ => none

/-- The code of an opcode: the "Code" column of R90. -/
def Opcode.bits : Opcode → Nibble
  | .nop => 0x0
  | .ldr => 0x1
  | .ldm => 0x2
  | .inc => 0x3
  | .dec => 0x4
  | .ldi => 0x5
  | .ldbi => 0x6
  | .addr => 0x7
  | .subr => 0x8
  | .inp => 0x9
  | .out => 0xA
  | .outb => 0xB
  | .jmpi => 0xC
  | .call => 0xD
  | .ret => 0xE
  | .stop => 0xF

/-- The opcode of an instruction (R90). -/
def Instr.opcode : Instr → Opcode
  | .nop => .nop
  | .ldr _ => .ldr
  | .ldm _ => .ldm
  | .inc => .inc
  | .dec => .dec
  | .ldi _ => .ldi
  | .ldbi _ => .ldbi
  | .addr => .addr
  | .subr => .subr
  | .inp => .inp
  | .out => .out
  | .outb _ => .outb
  | .jmpi _ => .jmpi
  | .call _ => .call
  | .ret => .ret
  | .stop => .stop

/-- The OPD field an instruction is written with: its operand, or 0 where it uses none (R105). -/
def Instr.opdField : Instr → Nibble
  | .nop => 0
  | .ldr n => n
  | .ldm n => n
  | .inc => 0
  | .dec => 0
  | .ldi _ => 0
  | .ldbi _ => 0
  | .addr => 0
  | .subr => 0
  | .inp => 0
  | .out => 0
  | .outb _ => 0
  | .jmpi n => n
  | .call n => n
  | .ret => 0
  | .stop => 0

/-- The IMM word an instruction is written with: its immediate, or 0 where it uses none (R105). -/
def Instr.immField : Instr → Word
  | .nop => 0
  | .ldr _ => 0
  | .ldm _ => 0
  | .inc => 0
  | .dec => 0
  | .ldi v => v
  | .ldbi v => v
  | .addr => 0
  | .subr => 0
  | .inp => 0
  | .out => 0
  | .outb v => v
  | .jmpi _ => 0
  | .call _ => 0
  | .ret => 0
  | .stop => 0

/-- CW = OPC·16 + OPD: the opcode in the high nibble (R86, R95). -/
def controlWord (opc opd : Nibble) : Word := opc ++ opd

/-- The two words of an instruction, its unused fields 0 (R85, R95, R106). -/
def encode (i : Instr) : List Word := [controlWord i.opcode.bits i.opdField, i.immField]

end Sys2Proof
end

