-- ==== Sys2Proof/Machine/State.lean ====
section
/-! DEFINITION. The machine's state as plain data, the reasons a step can stop, and the state after reset
(10_state.md R30). -/

namespace Sys2Proof.Machine

/-- The three word- or cell-addressed spaces an access can fall outside of (00_scope.md R14, R15; 20_memory.md R70). -/
inductive Space where
  | rom | ram | plane
deriving DecidableEq, Repr

/-- The errors a tick can raise (00_scope.md R15, 60_exceptions.md R210). The spec describes what taking one does (R213), so
a meaning TAKES it, as a next state with the fault status written (`State.takeFault`): no step answers `Outcome.fault`.
Log 4. -/
inductive Fault where
  /-- Raised by a bounded read or write when the address is at or beyond the size of the space (R212): in a run only by
  LDM (R134). Safe: it is taken as the spec says. -/
  | outOfRange (space : Space) (addr : Nat)
  /-- Raised by a dispatch that has no handler for an opcode (R211). All 16 have one (R91), so nothing raises it; it is kept
  because the spec keeps it. Safe. -/
  | decodeError (opc : Nibble)
deriving DecidableEq, Repr

/-- Why a step has no meaning. -/
inductive Refusal where
  /-- Raised by an arm of `exec` whose instruction has no meaning yet: no arm of this model does. Safe. -/
  | notModelled (mnemonic : String)
  /-- Raised by `step` when no ROM image is loaded (L = 0). Safe: "No tick is ever performed for an image that fails to
  load" (60_exceptions.md R214), and spec/93 says to refuse it. Log 3. -/
  | noImage
deriving DecidableEq, Repr

/-- The state of CORE (R30) with the field the spec gives for each element, and at the end three fields of the model's own
for what CORE exchanges with its host. -/
structure State where
  /-- ACC, the accumulator (R31). -/
  acc : Word
  /-- RB (R32). -/
  rb : Word
  /-- RC (R33). -/
  rc : Word
  /-- JMP, the saved return slot (R34). -/
  jmp : Word
  /-- PC, a slot index (R36). -/
  pc : Word
  /-- OUTW, the output word the display reads as a pixel (R38). -/
  outw : Word
  /-- OUTBUF, the output-buffer word the display reads as swap control (R39). -/
  outbuf : Word
  /-- RAM[0..255] (20_memory.md R63). -/
  ram : Memory
  /-- ROM[0..L-1] (20_memory.md R60). -/
  rom : Memory
  /-- L, the loaded image's length in words (00_scope.md R9). 0: no image is loaded (log 3). -/
  romLen : Nat
  /-- PLANE[0] (R42). -/
  plane0 : Plane
  /-- PLANE[1] (R42). -/
  plane1 : Plane
  /-- FRONT: which plane is the front plane (R41). -/
  front : BitVec 1
  /-- FAULT (R44). -/
  fault : BitVec 1
  /-- FAULT_KIND: 0 none, 1 OutOfRange, 2 DecodeError (R44). -/
  faultKind : BitVec 2
  /-- FAULT_ADDR (R44). -/
  faultAddr : Word
  /-- The model's own: the words the host drives on `in_word` at the coming ticks, oldest first (R72). Log 1. -/
  inputs : List Word
  /-- The model's own: how many input samples have been taken; indexes the free input word (R45). Log 1. -/
  samples : Nat
  /-- The model's own: how many `present` pulses have been given since reset (42_output.md R181). Log 6. -/
  presents : Nat
deriving DecidableEq, Repr

/-- The construction state (70_reset_and_hazards.md R240): every register, RAM word and cell 0. No ROM image is loaded in
it; the host loads one (`boot` in Machine/Loader.lean, R244). Log 3. -/
def State.reset : State where
  acc := 0
  rb := 0
  rc := 0
  jmp := 0
  pc := 0
  outw := 0
  outbuf := 0
  ram := []
  rom := []
  romLen := 0
  plane0 := []
  plane1 := []
  front := 0
  fault := 0#1
  faultKind := 0#2
  faultAddr := 0#8
  inputs := []
  samples := 0
  presents := 0

end Sys2Proof.Machine
end

