-- ==== Sys2Proof/Machine/Ops.lean ====
section
/-! DEFINITION. The named operations over memories and registers, taking a fault, the post-step update of PC, and reset. -/

namespace Sys2Proof

/-! ### Memories as lists of cells -/

/-- The value at an address: 0 where the address is not listed (R64, R42). -/
def Cells.read {w : Nat} : Cells w → Nat → BitVec w
  | [], _ => 0#w
  | (a, v) :: m, b => if a = b then v else Cells.read m b

/-- The list with a cell put in before the first greater address. -/
def Cells.insert {w : Nat} : Cells w → Nat → BitVec w → Cells w
  | [], b, v => [(b, v)]
  | (a, u) :: m, b, v => if b < a then (b, v) :: (a, u) :: m else (a, u) :: Cells.insert m b v

/-- The list without the cells at an address. -/
def Cells.erase {w : Nat} : Cells w → Nat → Cells w
  | [], _ => []
  | (a, u) :: m, b => if a = b then Cells.erase m b else (a, u) :: Cells.erase m b

/-- The memory with `v` at address `b`; writing 0, what an unlisted address reads as, leaves no entry. -/
def Cells.write {w : Nat} (m : Cells w) (b : Nat) (v : BitVec w) : Cells w :=
  if v = 0#w then Cells.erase m b else Cells.insert (Cells.erase m b) b v

/-- Every entry lies at or above `lo` and below `size`, addresses strictly rise, and no entry is 0. -/
def Cells.wfFrom {w : Nat} (size : Nat) : Nat → Cells w → Bool
  | _, [] => true
  | lo, (a, v) :: m => decide (lo ≤ a) && decide (a < size) && v != 0#w && Cells.wfFrom size (a + 1) m

/-- The canonical form of a memory of `size` entries. -/
def Cells.wf {w : Nat} (size : Nat) (m : Cells w) : Bool := Cells.wfFrom size 0 m

/-- The canonical form of a memory of Words. -/
def Memory.wf (size : Nat) (m : Memory) : Bool := Cells.wf size m

namespace Machine

/-! ### Register updates -/

def State.setAcc (v : Word) (s : State) : State := { s with acc := v }
def State.setRb (v : Word) (s : State) : State := { s with rb := v }
def State.setRc (v : Word) (s : State) : State := { s with rc := v }
def State.setJmp (v : Word) (s : State) : State := { s with jmp := v }
def State.setPc (v : Word) (s : State) : State := { s with pc := v }
def State.setOutw (v : Word) (s : State) : State := { s with outw := v }
def State.setOutbuf (v : Word) (s : State) : State := { s with outbuf := v }
def State.setFront (v : BitVec 1) (s : State) : State := { s with front := v }
def State.setRam (m : Memory) (s : State) : State := { s with ram := m }
def State.setRom (m : Memory) (s : State) : State := { s with rom := m }

/-! ### The planes -/

/-- PLANE[p] (R42). -/
def State.plane (s : State) (p : BitVec 1) : Plane := if p = 0#1 then s.plane0 else s.plane1

/-- The state with PLANE[p] replaced. -/
def State.setPlane (p : BitVec 1) (m : Plane) (s : State) : State :=
  if p = 0#1 then { s with plane0 := m } else { s with plane1 := m }

/-- 1 - FRONT: the plane that receives pixel writes (R41). -/
def State.back (s : State) : BitVec 1 := 1#1 - s.front

/-- `readColor(a)` of plane p (R69): a pure accessor. -/
def State.readColor (s : State) (p : BitVec 1) (a : CellAddr) : Color := Cells.read (s.plane p) a.toNat

/-- The write of one cell's colour (R68), the address already known to be a cell's. -/
def State.setColor (p : BitVec 1) (a : CellAddr) (c : Color) (s : State) : State :=
  s.setPlane p (Cells.write (s.plane p) a.toNat c)

/-! ### Bounded accesses -/

/-- A read with the bounds check of R62 and R65. -/
def boundedRead {w : Nat} (sp : Space) (size : Nat) (m : Cells w) (addr : Nat) : Except Fault (BitVec w) :=
  if addr ≥ size then .error (.outOfRange sp addr) else .ok (Cells.read m addr)

/-- A write with the bounds check of R66 and R68. -/
def boundedWrite {w : Nat} (sp : Space) (size : Nat) (m : Cells w) (addr : Nat) (v : BitVec w) : Except Fault (Cells w) :=
  if addr ≥ size then .error (.outOfRange sp addr) else .ok (Cells.write m addr v)

/-- `MemRead(ROM, addr, 1)`, checked against L (R62). -/
def State.romRead (s : State) (addr : Nat) : Except Fault Word := boundedRead .rom s.romLen s.rom addr

/-- `MemRead(RAM, addr, 1)`, checked against 256 (R65). -/
def State.ramRead (s : State) (addr : Nat) : Except Fault Word := boundedRead .ram Config.ramSize s.ram addr

/-- `MemWrite(ROM, addr, 1, v)` (R66). It is an interface of the memory block; no step drives it. -/
def State.romWrite (addr : Nat) (v : Word) (s : State) : Except Fault State :=
  (boundedWrite .rom s.romLen s.rom addr v).map (fun m => s.setRom m)

/-- `MemWrite(RAM, addr, 1, v)` (R66). It is an interface of the memory block; no step drives it. -/
def State.ramWrite (addr : Nat) (v : Word) (s : State) : Except Fault State :=
  (boundedWrite .ram Config.ramSize s.ram addr v).map (fun m => s.setRam m)

/-- `MemWrite(PLANE[p], a, 1, c)`, the source's `writeColor` (R68), with its check against 64. -/
def State.planeWrite (p : BitVec 1) (a : Nat) (c : Color) (s : State) : Except Fault State :=
  (boundedWrite .plane Config.cellsPerPlane (s.plane p) a c).map (fun m => s.setPlane p m)

/-- All four memories are in canonical form. -/
def State.memoryWf (s : State) : Bool :=
  Memory.wf s.romLen s.rom && Memory.wf Config.ramSize s.ram &&
    Cells.wf Config.cellsPerPlane s.plane0 && Cells.wf Config.cellsPerPlane s.plane1

/-! ### Taking a fault -/

/-- FAULT_KIND of an error: 1 for OutOfRange, 2 for DecodeError (R44, R210). -/
def Fault.kind : Fault → BitVec 2
  | .outOfRange _ _ => 1#2
  | .decodeError _ => 2#2

/-- FAULT_ADDR of an error: the address truncated to 8 bits, or the opcode zero-extended (R44, R211, R212). -/
def Fault.info : Fault → Word
  | .outOfRange _ addr => BitVec.ofNat 8 addr
  | .decodeError opc => opc.setWidth 8

/-- Taking a fault (R213): the fault status is written, and everything else keeps the value it had before the step. There
is no way back from it but reset (R215). -/
def State.takeFault (e : Fault) (s : State) : State :=
  { s with fault := 1#1, faultKind := e.kind, faultAddr := e.info }

/-! ### The program counter -/

/-- N, the slot count: ROM length / 2 (R9, R36). -/
def State.slots (s : State) : Nat := s.romLen / 2

/-- The post-step update from PCx: `t <- PCx + 1; PC <- (if t >= N then 0 else t)` with t an integer (R118, decision D6). -/
def State.nextPc (s : State) (pcx : Word) : Word :=
  if pcx.toNat + 1 ≥ s.slots then 0#8 else BitVec.ofNat 8 (pcx.toNat + 1)

/-- The state after the post-step update from PCx (R118, R120). -/
def State.advance (pcx : Word) (s : State) : State := s.setPc (s.nextPc pcx)

/-! ### Fetch -/

/-- The two words of slot PC, at word addresses 2·PC and 2·PC+1, the control word read first (R112, R216). -/
def State.fetch (s : State) : Except Fault (Word × Word) :=
  match s.romRead (2 * s.pc.toNat) with
  | .error e => .error e
  | .ok cw =>
    match s.romRead (2 * s.pc.toNat + 1) with
    | .error e => .error e
    | .ok imm => .ok (cw, imm)

/-! ### The input port -/

/-- The word the host drives, from its "optional input word (observed default 0)" (R72, R9, decision D15). -/
def hostWord (w : Option Word) : Word := w.getD Config.defaultInput

/-- The host drives `in_word` at further ticks, one entry a tick: `none` leaves that tick at the default (R72, R246). It is the
host's act between ticks and no step of the machine. Log 1. -/
def State.drive (ws : List (Option Word)) (s : State) : State := { s with inputs := s.inputs ++ ws.map hostWord }

/-- The sample of `in_word` the coming tick takes (R114, R72): what the host drives, and a free value where the model is told
nothing of it. Log 1. -/
def State.inSample (s : State) : Word :=
  match s.inputs with
  | w :: _ => w
  | [] => Config.freeInput s.samples

/-- The host's side of the input port after a tick has sampled it. Log 1. -/
def State.consumeSample (s : State) : State := { s with inputs := s.inputs.tail, samples := s.samples + 1 }

/-! ### Reset and the placing of a slot -/

/-- `rst`: the construction state, with the loaded ROM kept (R240, decision D18). The input port's side is the host's and is
kept, so that later free inputs are not tied to earlier ones; `presents` counts from here. Log 12. -/
def State.rst (s : State) : State :=
  { State.reset with rom := s.rom, romLen := s.romLen, inputs := s.inputs, samples := s.samples }

/-- The state with the words of a slot loaded at slot PC and the block able to run it: the image reaches to that slot, and no
fault is latched. It stands for the host's load and is no step of the machine (log 3). -/
def State.placeSlot (cw imm : Word) (s : State) : State :=
  { s with
    rom := Cells.write (Cells.write s.rom (2 * s.pc.toNat) cw) (2 * s.pc.toNat + 1) imm
    romLen := max s.romLen (2 * s.pc.toNat + 2)
    fault := 0#1
    faultKind := 0#2
    faultAddr := 0#8 }

end Machine
end Sys2Proof
end

