-- ==== Sys2Proof/Machine/Operands.lean ====
section
/-! DEFINITION. The operand forms: how each instruction uses OPD and IMM (30_encoding.md R87, R88). -/

namespace Sys2Proof.Machine

/-- OPD as a RAM word address: zero-extended (R87, R131). -/
def ramAddress (opd : Nibble) : Nat := opd.toNat

/-- OPD as the slot whose control word LDM reads: word address 2·OPD (R87, R133, decision D3). -/
def controlWordAddress (opd : Nibble) : Nat := 2 * opd.toNat

/-- OPD as a slot index, the value JMPI and CALL write to PC: zero-extended (R87, R191, R193). -/
def slotIndex (opd : Nibble) : Word := opd.setWidth 8

/-- IMM as a literal: used unchanged (R88). -/
def literal (imm : Word) : Word := imm

end Sys2Proof.Machine
end

