-- ==== Sys2Proof/Machine/Flags.lean ====
section
/-! DEFINITION. The ALU's four functions (41_data.md R129). KATE-8 has no flags: the ALU gives no carry, borrow, zero, sign or
overflow output (10_state.md R40, R129), so this file holds the results alone. -/

namespace Sys2Proof.Machine

/-- `add8(a, b) = (a + b) mod 256` (R129). -/
def add8 (a b : Word) : Word := a + b

/-- `sub8(a, b) = (a - b) mod 256`, the non-negative remainder (R129). -/
def sub8 (a b : Word) : Word := a - b

/-- `inc8(a) = (a + 1) mod 256` (R129). -/
def inc8 (a : Word) : Word := a + 1#8

/-- `dec8(a) = (a - 1) mod 256` (R129). -/
def dec8 (a : Word) : Word := a - 1#8

end Sys2Proof.Machine
end

