-- ==== Sys2Proof/Machine/Data.lean ====
section
/-! DEFINITION. The meanings of opcodes 0x0 to 0x9 (41_data.md). A meaning is the whole of R111's Step after decode: the
instruction's arm on the values at the start of the step (R116), then the post-step update of R118. -/

namespace Sys2Proof.Machine

/-- The step ends with the post-step update from PCx = PC (R118). -/
def finish (s : State) (t : State) : Host.Outcome State Fault Refusal := .next (t.advance s.pc)

/-- ACC takes the value of a checked read; a read that raises is taken as a fault, and nothing else is written (R117). -/
def loadAcc (r : Except Fault Word) (s : State) : Host.Outcome State Fault Refusal :=
  match r with
  | .ok v => finish s (s.setAcc v)
  | .error e => .next (s.takeFault e)

/-- NOP: nothing (R130). -/
def execNop (s : State) : Host.Outcome State Fault Refusal := finish s s

/-- LDR: `ACC <- MemRead(RAM, zext_8(OPD), 1)` (R131). -/
def execLdr (opd : Nibble) (s : State) : Host.Outcome State Fault Refusal := loadAcc (s.ramRead (ramAddress opd)) s

/-- LDM: `ACC <- MemRead(ROM, 2 * zext_8(OPD), 1)`, OutOfRange past the image (R133, R134). -/
def execLdm (opd : Nibble) (s : State) : Host.Outcome State Fault Refusal :=
  loadAcc (s.romRead (controlWordAddress opd)) s

/-- INC: `ACC <- inc8(ACC)` (R135). -/
def execInc (s : State) : Host.Outcome State Fault Refusal := finish s (s.setAcc (inc8 s.acc))

/-- DEC: `ACC <- dec8(ACC)` (R136). -/
def execDec (s : State) : Host.Outcome State Fault Refusal := finish s (s.setAcc (dec8 s.acc))

/-- LDI: `ACC <- IMM` (R137). -/
def execLdi (imm : Word) (s : State) : Host.Outcome State Fault Refusal := finish s (s.setAcc (literal imm))

/-- LDBI: `RB <- IMM` (R138). -/
def execLdbi (imm : Word) (s : State) : Host.Outcome State Fault Refusal := finish s (s.setRb (literal imm))

/-- ADDR: `RC <- add8(ACC, RB)`; ACC is not written (R139, 90_conflicts.md C4). -/
def execAddr (s : State) : Host.Outcome State Fault Refusal := finish s (s.setRc (add8 s.acc s.rb))

/-- SUBR: `ACC <- sub8(ACC, RB)` (R140). -/
def execSubr (s : State) : Host.Outcome State Fault Refusal := finish s (s.setAcc (sub8 s.acc s.rb))

/-- INP: `ACC <- s`, the tick's input sample (R141, R114). -/
def execInp (s : State) : Host.Outcome State Fault Refusal := finish s (s.setAcc s.inSample)

end Sys2Proof.Machine
end

