-- ==== Sys2Proof/Machine/Control.lean ====
section
/-! DEFINITION. The meanings of opcodes 0xC to 0xF (43_control.md). JMPI, CALL and RET leave PCx and take the post-step update
like every instruction; STOP does not (40_cycle.md R118 to R120, 90_conflicts.md C3). -/

namespace Sys2Proof.Machine

/-- JMPI: `PCx <- zext_8(OPD)` (R191, R192). -/
def execJmpi (opd : Nibble) (s : State) : Host.Outcome State Fault Refusal := .next (s.advance (slotIndex opd))

/-- CALL: `JMP <- (PC + 1)[7:0]; PCx <- zext_8(OPD)`, PC being the CALL's own slot, with no wrap at N (R193, R194). -/
def execCall (opd : Nibble) (s : State) : Host.Outcome State Fault Refusal :=
  .next ((s.setJmp (s.pc + 1#8)).advance (slotIndex opd))

/-- RET: `PCx <- JMP` (R195, R196). -/
def execRet (s : State) : Host.Outcome State Fault Refusal := .next (s.advance s.jmp)

/-- STOP: `PC <- 0`, with no post-step update (R197, R119). It halts nothing (R198). -/
def execStop (s : State) : Host.Outcome State Fault Refusal := .next (s.setPc 0#8)

end Sys2Proof.Machine
end

