-- ==== Sys2Proof/Machine/Output.lean ====
section
/-! DEFINITION. The meanings of opcodes 0xA and 0xB (42_output.md R160, R161). What the display driver does with the two
latches, in the same tick, is in Machine/Display.lean. -/

namespace Sys2Proof.Machine

/-- OUT: `OUTW <- ACC` (R160). -/
def execOut (s : State) : Host.Outcome State Fault Refusal := finish s (s.setOutw s.acc)

/-- OUTB: `OUTBUF <- IMM` (R161). -/
def execOutb (imm : Word) (s : State) : Host.Outcome State Fault Refusal := finish s (s.setOutbuf (literal imm))

end Sys2Proof.Machine
end

