-- ==== Sys2Proof/Machine/Dispatch.lean ====
section
/-! DEFINITION. The dispatch (40_cycle.md R115): exactly one arm for each instruction, no default. -/

namespace Sys2Proof.Machine

def exec (i : Instr) (s : State) : Host.Outcome State Fault Refusal :=
  match i with
  | .nop => Sys2Proof.Machine.execNop s
  | .ldr opd => Sys2Proof.Machine.execLdr opd s
  | .ldm opd => Sys2Proof.Machine.execLdm opd s
  | .inc => Sys2Proof.Machine.execInc s
  | .dec => Sys2Proof.Machine.execDec s
  | .ldi imm => Sys2Proof.Machine.execLdi imm s
  | .ldbi imm => Sys2Proof.Machine.execLdbi imm s
  | .addr => Sys2Proof.Machine.execAddr s
  | .subr => Sys2Proof.Machine.execSubr s
  | .inp => Sys2Proof.Machine.execInp s
  | .out => Sys2Proof.Machine.execOut s
  | .outb imm => Sys2Proof.Machine.execOutb imm s
  | .jmpi opd => Sys2Proof.Machine.execJmpi opd s
  | .call opd => Sys2Proof.Machine.execCall opd s
  | .ret => Sys2Proof.Machine.execRet s
  | .stop => Sys2Proof.Machine.execStop s

end Sys2Proof.Machine
end

