-- ==== Sys2Proof/Machine/Display.lean ====
section
/-! DEFINITION. The display driver (42_output.md R170 to R185): the pixel-word codec, the back-plane write, the swap, the
render with its `present` pulse, and the block's outputs (00_scope.md R10). -/

namespace Sys2Proof.Machine

/-! ### The pixel word and the cell address -/

/-- x = w[7:5] (R171, decision D2). -/
def pixelX (w : Word) : BitVec 3 := w.extractLsb' 5 3

/-- y = w[4:2] (R171, decision D2). -/
def pixelY (w : Word) : BitVec 3 := w.extractLsb' 2 3

/-- color = w[1:0] (R171, decision D2). -/
def pixelColor (w : Word) : Color := w.extractLsb' 0 2

/-- The cell address x·8 + y = w[7:2] (R171). -/
def pixelAddr (w : Word) : CellAddr := w.extractLsb' 2 6

/-- `encode(x, y, color) = {x, y, color}` (R179). -/
def pixelWord (x y : BitVec 3) (c : Color) : Word := x ++ y ++ c

/-- `readX(a)` = a[5:3] (R43, R69). -/
def readX (a : CellAddr) : BitVec 3 := a.extractLsb' 3 3

/-- `readY(a)` = a[2:0] (R43, R69). -/
def readY (a : CellAddr) : BitVec 3 := a.extractLsb' 0 3

/-! ### The display update -/

/-- The pixel write: unless the word is the sentinel 0, one cell of the back plane takes a colour (R172, R173). -/
def State.writePixel (w : Word) (s : State) : State :=
  if w ≠ 0#8 then s.setColor s.back (pixelAddr w) (pixelColor w) else s

/-- The swap: the all-ones word exchanges the roles of the planes, any other is a no-op (R175). -/
def State.maybeSwap (c : Word) (s : State) : State := if c = 0xFF#8 then s.setFront (1#1 - s.front) else s

/-- The render and its pulse (R180, R181). The render writes no plane and no register; `front_color` is `State.frontColor`.
The pulse is counted. Log 6. -/
def State.present (s : State) : State := { s with presents := s.presents + 1 }

/-- The display update of a completed tick, with the latches as the step left them: pixel write, then swap, then render
(R170, R174, R177). -/
def State.displayUpdate (s : State) : State :=
  ((s.writePixel s.outw).maybeSwap s.outbuf).present

/-! ### The control signals and the outputs -/

/-- `we[p]`: the write enable of plane p (R184). -/
def State.we (s : State) (p : BitVec 1) : Bool := s.outw != 0#8 && p == s.back

/-- `swap` (R184). -/
def State.swap (s : State) : Bool := s.outbuf == 0xFF#8

/-- `waddr`: the write address of both planes (R184). -/
def State.waddr (s : State) : CellAddr := pixelAddr s.outw

/-- `wdata`: the write colour of both planes (R184). -/
def State.wdata (s : State) : Color := pixelColor s.outw

/-- `front_color[a] = PLANE[FRONT][a]` (R180). -/
def State.frontColor (s : State) (a : CellAddr) : Color := s.readColor s.front a

/-- The output ports of the block (00_scope.md R10). -/
structure Ports where
  /-- `front_color[0..63]`. -/
  frontColors : List Color
  /-- The number of `present` pulses so far. -/
  presents : Nat
  fault : BitVec 1
  faultKind : BitVec 2
  faultAddr : Word
  outWord : Word
  outBuf : Word
deriving DecidableEq, Repr

/-- What the host may read at any time (R10, R246). -/
def State.ports (s : State) : Ports where
  frontColors := (List.range Config.cellsPerPlane).map (fun a => s.frontColor (BitVec.ofNat 6 a))
  presents := s.presents
  fault := s.fault
  faultKind := s.faultKind
  faultAddr := s.faultAddr
  outWord := s.outw
  outBuf := s.outbuf

/-! ### The sink's side of the contract -/

/-- Red, green and blue of a colour index: the palette (R182). CORE outputs only indices; the sink applies it. -/
def palette (c : Color) : Nat × Nat × Nat :=
  if c = 0#2 then (0, 0, 0) else if c = 1#2 then (255, 0, 255) else if c = 2#2 then (0, 255, 255) else (255, 255, 255)

/-- SINK_ORIENTATION (R183, decision D19): CORE leaves it to the sink. -/
inductive SinkOrientation where
  | xAcross | xDown
deriving DecidableEq, Repr

/-- The screen column and row of a cell, for a sink of the given orientation (R183). Log 8. -/
def screenPlace (o : SinkOrientation) (a : CellAddr) : BitVec 3 × BitVec 3 :=
  match o with
  | .xAcross => (readX a, readY a)
  | .xDown => (readY a, readX a)

end Sys2Proof.Machine
end

