-- ==== Sys2Proof/Machine/Tick.lean ====
section
/-! DEFINITION. The tick around the step (40_cycle.md R124): what a tick does before and after the step of the CPU. Log 13. -/

namespace Sys2Proof.Machine

/-- The end of a tick whose step has committed or raised: the input sample has been taken (R114), and, unless the step
raised a fault, the display update runs (R124, R213). -/
def State.endTick (s : State) : State :=
  if s.fault = 1#1 then s.consumeSample else s.consumeSample.displayUpdate

/-- The end of a tick, over an outcome of the CPU's step. -/
def endTickOf (o : Host.Outcome State Fault Refusal) : Host.Outcome State Fault Refusal :=
  match o with
  | .next t => .next t.endTick
  | .fault e => .fault e
  | .refused r => .refused r

/-- The CPU's step of a tick (R111): fetch, decode and execute; a fetch that raises is taken as a fault (R216). -/
def State.cpuStep (s : State) : Host.Outcome State Fault Refusal :=
  match s.fetch with
  | .ok (cw, imm) => exec (decodeSlot cw imm) s
  | .error e => .next (s.takeFault e)

/-- One tick (R124): nothing in the fault state (R127); no tick is performed without an image (R214, log 3); else one step
and the end of the tick. -/
def State.tick (s : State) : Host.Outcome State Fault Refusal :=
  if s.fault = 1#1 then .next s
  else if s.romLen = 0 then .refused .noImage
  else endTickOf s.cpuStep

/-- The state with the slot value of an opcode-table word placed at slot PC (R89). -/
def State.placeTableWord (nbits w : Nat) (s : State) : State :=
  let slot := slotOfTableWord nbits w
  s.placeSlot (slot.extractLsb' 8 8) (slot.extractLsb' 0 8)

end Sys2Proof.Machine
end

