-- ==== Sys2Proof/Machine/Step.lean ====
section
/-! DEFINITION. One step of the model is one tick of the block (40_cycle.md R124, R125). -/

namespace Sys2Proof.Machine

/-- One tick (R124). -/
def step (s : State) : Host.Outcome State Fault Refusal := s.tick

/-- `s` with the instruction of an opcode-table word where `step` fetches next. It stands for the host's load of an image
(70_reset_and_hazards.md R244): log 3. -/
def State.withFetchWord (s : State) (nbits w : Nat) : State := s.placeTableWord nbits w

end Sys2Proof.Machine
end

