-- ==== Sys2Proof/Machine/Assembly.lean ====
section
/-! DEFINITION. The spec's assembly notation (30_encoding.md R105 to R107, 00_scope.md R16, decision D17): first over the parts
of a line, the mnemonic, the operand and the comment, then over its text. Log 11. -/

namespace Sys2Proof.Machine

/-- The spelling of each mnemonic (R90). -/
def mnemonicText : Opcode → List Char
  | .nop => ['N', 'O', 'P']
  | .ldr => ['L', 'D', 'R']
  | .ldm => ['L', 'D', 'M']
  | .inc => ['I', 'N', 'C']
  | .dec => ['D', 'E', 'C']
  | .ldi => ['L', 'D', 'I']
  | .ldbi => ['L', 'D', 'B', 'I']
  | .addr => ['A', 'D', 'D', 'R']
  | .subr => ['S', 'U', 'B', 'R']
  | .inp => ['I', 'N', 'P']
  | .out => ['O', 'U', 'T']
  | .outb => ['O', 'U', 'T', 'B']
  | .jmpi => ['J', 'M', 'P', 'I']
  | .call => ['C', 'A', 'L', 'L']
  | .ret => ['R', 'E', 'T']
  | .stop => ['S', 'T', 'O', 'P']

/-- The OPD field the assembler writes: `n`, else 0 (R105). -/
def AsmLine.opdField (l : AsmLine) : Nibble :=
  match l.operand with
  | .opd n => BitVec.ofNat 4 n
  | .none => 0
  | .imm _ => 0

/-- The IMM word the assembler writes: `v`, else 0 (R105). -/
def AsmLine.immField (l : AsmLine) : Word :=
  match l.operand with
  | .imm v => BitVec.ofNat 8 v
  | .none => 0
  | .opd _ => 0

/-- The assembler: the slot of a line, or none where it rejects the operand (R105, R106). A comment changes nothing. -/
def assemble (l : AsmLine) : Option (Word × Word) :=
  if l.wf then some (controlWord l.mnemonic.bits (AsmLine.opdField l), AsmLine.immField l) else none

/-- The operand a disassembler prints: the field the instruction uses (R105, R107). -/
def printedOperand (o : Opcode) (opd : Nibble) (imm : Word) : AsmOperand :=
  match o.uses with
  | .nothing => .none
  | .opd => .opd opd.toNat
  | .imm => .imm imm.toNat

/-- Every field the instruction does not use is 0 in the slot `CW IMM`. -/
def unusedFieldsZero (cw imm : Word) : Bool :=
  match (Opcode.ofBits (opcOf cw)).uses with
  | .nothing => opdOf cw == 0 && imm == 0
  | .opd => imm == 0
  | .imm => opdOf cw == 0

/-- The disassembler: the mnemonic with its operand, and the comment where an unused field is not zero (R107). -/
def disassemble (cw imm : Word) : AsmLine where
  mnemonic := Opcode.ofBits (opcOf cw)
  operand := printedOperand (Opcode.ofBits (opcOf cw)) (opdOf cw) imm
  comment := if unusedFieldsZero cw imm then none else some (opdOf cw, imm)

/-- The slot rebuilt from a disassembled line: from the comment where there is one, else as the assembler does (R107: "so that
the slot can be rebuilt from the text"). -/
def rebuildSlot (l : AsmLine) : Option (Word × Word) :=
  match l.comment with
  | some (opd, imm) => some (controlWord l.mnemonic.bits opd, imm)
  | none => assemble l

/-! ### The text of a line -/

/-- The characters of the sixteen hexadecimal digits. -/
def hexDigits : Vector Char 16 :=
  #v['0', '1', '2', '3', '4', '5', '6', '7', '8', '9', 'A', 'B', 'C', 'D', 'E', 'F']

/-- The hexadecimal digit of a nibble. -/
def hexDigit (n : Nibble) : Char := hexDigits[n.toFin]

/-- The value of a digit, decimal or hexadecimal, in either case of its letter. -/
def digitValue (c : Char) : Option Nat :=
  if 48 ≤ c.toNat ∧ c.toNat ≤ 57 then some (c.toNat - 48)
  else if 65 ≤ c.toNat ∧ c.toNat ≤ 70 then some (c.toNat - 55)
  else if 97 ≤ c.toNat ∧ c.toNat ≤ 102 then some (c.toNat - 87)
  else none

/-- The number that digits of a base spell, after those that spell `n`. -/
def digitsFrom (base n : Nat) : List Char → Option Nat
  | [] => some n
  | c :: cs =>
    match digitValue c with
    | some d => if d < base then digitsFrom base (base * n + d) cs else none
    | none => none

/-- The rest of a text after a prefix, or none where it has another start. -/
def afterPrefix : List Char → List Char → Option (List Char)
  | [], cs => some cs
  | _ :: _, [] => none
  | p :: ps, c :: cs => if p = c then afterPrefix ps cs else none

/-- A number: decimal unless written `0x..` (R16). -/
def readNumber (cs : List Char) : Option Nat :=
  match afterPrefix ['0', 'x'] cs with
  | some [] => none
  | some hs => digitsFrom 16 0 hs
  | none => if cs = [] then none else digitsFrom 10 0 cs

/-- An operand: `#v` is an immediate and a bare number the 4-bit operand (R16, R105). -/
def readOperand (cs : List Char) : Option AsmOperand :=
  match afterPrefix ['#'] cs with
  | some ns => (readNumber ns).map AsmOperand.imm
  | none => (readNumber cs).map AsmOperand.opd

/-- The opcode a mnemonic names (R90). -/
def readMnemonic (cs : List Char) : Option Opcode := opcodeTable.toList.find? (fun o => mnemonicText o == cs)

/-- The blank-separated parts of a text; `cur` is the part so far, its last character first. -/
def partsFrom (cur : List Char) : List Char → List (List Char)
  | [] => if cur = [] then [] else [cur.reverse]
  | c :: cs =>
    if c = ' ' then (if cur = [] then partsFrom [] cs else cur.reverse :: partsFrom [] cs)
    else partsFrom (c :: cur) cs

/-- The text before the first `;`, which begins a comment (R105). -/
def codeText : List Char → List Char
  | [] => []
  | c :: cs => if c = ';' then [] else c :: codeText cs

/-- The text after the first `;`: the comment, empty where there is none (R105). -/
def commentText : List Char → List Char
  | [] => []
  | c :: cs => if c = ';' then cs else commentText cs

/-- The fields in a disassembler's comment ` opd=n imm=vv` (R107), n one hexadecimal digit and vv two; none in another comment. -/
def readComment (cs : List Char) : Option (Nibble × Word) :=
  match partsFrom [] cs with
  | [p, q] =>
    match afterPrefix ['o', 'p', 'd', '='] p, afterPrefix ['i', 'm', 'm', '='] q with
    | some [n], some [h, l] =>
      match digitsFrom 16 0 [n], digitsFrom 16 0 [h, l] with
      | some a, some b => some (BitVec.ofNat 4 a, BitVec.ofNat 8 b)
      | _, _ => none
    | _, _ => none
  | _ => none

/-- The parts of a line of text: one mnemonic, then at most one operand, then a comment (R105). -/
def parseLine (text : List Char) : Option AsmLine :=
  match partsFrom [] (codeText text) with
  | [m] =>
    (readMnemonic m).map (fun o => { mnemonic := o, operand := .none, comment := readComment (commentText text) })
  | [m, p] =>
    match readMnemonic m, readOperand p with
    | some o, some a => some { mnemonic := o, operand := a, comment := readComment (commentText text) }
    | _, _ => none
  | _ => none

/-- The decimal digits of a number below 1000 (R16). -/
def decimalText (n : Nat) : List Char :=
  let digit := fun k => hexDigit (BitVec.ofNat 4 (k % 10))
  if n < 10 then [digit n]
  else if n < 100 then [digit (n / 10), digit n]
  else [digit (n / 100), digit (n / 10), digit n]

/-- The text of an operand, after a blank (R105). -/
def operandText : AsmOperand → List Char
  | .none => []
  | .opd n => ' ' :: decimalText n
  | .imm v => ' ' :: '#' :: decimalText v

/-- The text of a disassembler's comment, after a blank (R107). -/
def commentTextOf : Option (Nibble × Word) → List Char
  | none => []
  | some (opd, imm) =>
    [' ', ';', ' ', 'o', 'p', 'd', '=', hexDigit opd, ' ', 'i', 'm', 'm', '=',
      hexDigit (imm.extractLsb' 4 4), hexDigit (imm.extractLsb' 0 4)]

/-- The text of a line. -/
def printLine (l : AsmLine) : List Char := mnemonicText l.mnemonic ++ operandText l.operand ++ commentTextOf l.comment

/-- The assembler on a line of text (R105). -/
def assembleText (text : List Char) : Option (Word × Word) := (parseLine text).bind assemble

/-- The disassembler's text of a slot (R107). -/
def disassembleText (cw imm : Word) : List Char := printLine (disassemble cw imm)

/-- The slot rebuilt from a disassembler's text (R107). -/
def rebuildText (text : List Char) : Option (Word × Word) := (parseLine text).bind rebuildSlot

end Sys2Proof.Machine
end

