-- ==== Sys2Proof/Machine/Loader.lean ====
section
/-! DEFINITION. The ROM-image loader and the boot (30_encoding.md R100 to R102, 70_reset_and_hazards.md R244). -/

namespace Sys2Proof.Machine

/-- Why an image does not load (R100, in the order of its cases). Which one is reported where several hold is the model's
choice, log 7. -/
inductive LoadError where
  | missing | lineLength | notBinary | oddCount | empty | tooLong
deriving DecidableEq, Repr

/-- The lines of a text: a line ends at LF, one CR just before the LF goes with it, and a terminator at the end starts no
further line (R100, decision D21). `cur` is the line so far, its last character first. -/
def linesFrom (cur : List Char) : List Char → List (List Char)
  | [] => if cur = [] then [] else [cur.reverse]
  | c :: cs =>
    if c = '\n' then
      (match cur with
        | '\r' :: rest => rest.reverse
        | _ => cur.reverse) :: linesFrom [] cs
    else linesFrom (c :: cur) cs

/-- The lines of an image (R100). -/
def imageLines (text : List Char) : List (List Char) := linesFrom [] text

/-- The value of a binary string, its first character the most significant bit (00_scope.md R11, decision D1). -/
def binaryValue (cs : List Char) : Nat := cs.foldl (fun n c => 2 * n + (if c = '1' then 1 else 0)) 0

/-- One line of an image: 8 characters, each `0` or `1` (R100 cases 2 and 3). -/
def loadLine (l : List Char) : Except LoadError Word :=
  if l.length ≠ 8 then .error .lineLength
  else if l.all (fun c => c == '0' || c == '1') then .ok (BitVec.ofNat 8 (binaryValue l))
  else .error .notBinary

/-- The words of the lines, line i giving ROM[i]. -/
def loadWords : List (List Char) → Except LoadError (List Word)
  | [] => .ok []
  | l :: ls =>
    match loadLine l with
    | .error e => .error e
    | .ok w =>
      match loadWords ls with
      | .error e => .error e
      | .ok ws => .ok (w :: ws)

/-- The words of an image's lines, with the line count checked (R100 cases 4 to 6, decisions D4, D5). -/
def loadLines (ls : List (List Char)) : Except LoadError (List Word) :=
  match loadWords ls with
  | .error e => .error e
  | .ok ws =>
    if ws.length = 0 then .error .empty
    else if ws.length % 2 ≠ 0 then .error .oddCount
    else if ws.length > Config.romCapacity then .error .tooLong
    else .ok ws

/-- Loading an image: `none` is an image that is missing or cannot be read (R100 case 1). -/
def loadImage (image : Option (List Char)) : Except LoadError (List Word) :=
  match image with
  | none => .error .missing
  | some text => loadLines (imageLines text)

/-- The canonical memory that holds the given words from address `a` on. -/
def cellsOfWords (a : Nat) : List Word → Memory
  | [] => []
  | w :: ws => if w = 0#8 then cellsOfWords (a + 1) ws else (a, w) :: cellsOfWords (a + 1) ws

/-- The state after boot with the words of a loaded image: the construction state with the ROM loaded (R102, R240, R244). -/
def State.boot (ws : List Word) : State :=
  { State.reset with rom := cellsOfWords 0 ws, romLen := ws.length }

/-- Boot from an image; a failed load leaves no machine state at all (R214, R244). -/
def bootImage (image : Option (List Char)) : Except LoadError State := (loadImage image).map State.boot

/-- The line a Word is written as in an image: 8 characters, bit 7 first (R101, R11). -/
def wordLine (w : Word) : List Char :=
  [7, 6, 5, 4, 3, 2, 1, 0].map (fun i => if w.getLsbD i then '1' else '0')

/-- The image that holds the given words, each line ended by LF (R101). -/
def imageOfWords (ws : List Word) : List Char := ws.flatMap (fun w => wordLine w ++ ['\n'])

end Sys2Proof.Machine
end

