-- ==== Sys2Proof/Safety.lean ====
section
/-! DEFINITION. What counts as a safe run, and the invariant every tick keeps. A clean run is one that records no fault: the
fault state is a fault outcome that is never final (40_cycle.md R127, 60_exceptions.md R226). -/

namespace Sys2Proof.Machine

/-- No fault is recorded (R44, R226). -/
abbrev State.Clean (s : State) : Prop := s.fault = 0#1

/-- The ROM's length is that of a loaded image (00_scope.md R9, 30_encoding.md R100). -/
abbrev State.ImageLoaded (s : State) : Prop := romLengthOk s.romLen = true

/-- No image is loaded, or one that loads (R100). -/
abbrev State.RomLegal (s : State) : Prop := s.romLen = 0 ∨ s.ImageLoaded

/-- PC is a slot of the image; 0 where none is loaded (10_state.md R36, 40_cycle.md R121). -/
abbrev State.PcInRange (s : State) : Prop := s.pc = 0#8 ∨ s.pc.toNat < s.slots

/-- An image is loaded and PC is one of its slots: what holds at the start of every step of a run (R9, R121). -/
abbrev State.Ready (s : State) : Prop := s.ImageLoaded ∧ s.pc.toNat < s.slots

/-- JMP is 0 or a slot after a CALL: at most N (43_control.md R194, R196). -/
abbrev State.JmpInRange (s : State) : Prop := s.jmp.toNat ≤ s.slots

/-- The RAM is all zero (20_memory.md R64). -/
abbrev State.RamZero (s : State) : Prop := s.ram = []

/-- The fault status is one of those the spec gives a meaning that a run can reach: no fault and 0, or OutOfRange (R44, R93). -/
abbrev State.FaultStatusLegal (s : State) : Prop :=
  (s.fault = 0#1 ∧ s.faultKind = 0#2 ∧ s.faultAddr = 0#8) ∨ (s.fault = 1#1 ∧ s.faultKind = 1#2)

/-- The invariant of the machine. -/
abbrev State.Inv (s : State) : Prop :=
  s.RomLegal ∧ s.PcInRange ∧ s.JmpInRange ∧ s.RamZero ∧ s.memoryWf = true ∧ s.FaultStatusLegal

/-- The slot a step of slot p with PCx = t goes to, as an integer (43_control.md R199): t + 1, or 0 if t + 1 ≥ N. -/
def nextSlot (n t : Nat) : Nat := if t + 1 ≥ n then 0 else t + 1

end Sys2Proof.Machine
end

