-- ==== Sys2Proof/Certificates/Slice0/Obligations.lean ====
section
/-! DEFINITION. The statements for the provers, from the numbered rules of spec/. A title or docstring that names a decision
D<n> or a derived rule says that the clause rests on it, not on a sentence of the source. -/

namespace Sys2Proof.Claims
open Sys2Proof.Machine

/-- Every slot whose high nibble is `opc` decodes to `f` of its OPD and IMM (30_encoding.md R90; that unused fields are
ignored is R92, decision D13, which the rule of each instruction states). -/
def Encoded (opc : Nibble) (f : Nibble → Word → Instr) : Prop := ∀ opd imm, decodeSlot (opc ++ opd) imm = f opd imm

/-- "PC ← PC+1, wrapping to 0 if it reaches the slot count" (40_cycle.md R118's quotation of the source). -/
def NextInOrder (s t : State) : Prop := t.pc.toNat = if s.pc.toNat + 1 = s.slots then 0 else s.pc.toNat + 1

/-- Every word of ROM and RAM and every cell of both planes reads as before. -/
def MemoryUnchanged (s t : State) : Prop :=
  (∀ a, t.romRead a = s.romRead a) ∧ (∀ a, t.ramRead a = s.ramRead a) ∧ ∀ p a, t.readColor p a = s.readColor p a

/-- The slot at PC is `CW IMM` (R112). -/
def SlotAt (s : State) (cw imm : Word) : Prop :=
  s.romRead (2 * s.pc.toNat) = .ok cw ∧ s.romRead (2 * s.pc.toNat + 1) = .ok imm

end Sys2Proof.Claims

open Sys2Proof Sys2Proof.Machine Sys2Proof.Claims

/-! ### Encoding -/

/-- Slots of R106 and of spec/95's vectors V11, V21, V25, V36 (unused fields not 0) decode to the instruction they are given
for. -/
def Obligations.SampleSlotsDecode : Prop :=
  decodeSlot 0x00 0x00 = .nop ∧ decodeSlot 0x0F 0xFF = .nop ∧ decodeSlot 0x17 0x00 = .ldr 7 ∧
  decodeSlot 0x22 0x00 = .ldm 2 ∧ decodeSlot 0x35 0xAA = .inc ∧ decodeSlot 0x40 0x00 = .dec ∧
  decodeSlot 0x5A 0xFF = .ldi 0xFF ∧ decodeSlot 0x60 0x20 = .ldbi 0x20 ∧ decodeSlot 0x70 0x00 = .addr ∧
  decodeSlot 0x80 0x00 = .subr ∧ decodeSlot 0x9C 0x33 = .inp ∧ decodeSlot 0xA0 0x00 = .out ∧
  decodeSlot 0xB0 0xFE = .outb 0xFE ∧ decodeSlot 0xC3 0x00 = .jmpi 3 ∧ decodeSlot 0xD4 0x00 = .call 4 ∧
  decodeSlot 0xE0 0x00 = .ret ∧ decodeSlot 0xF0 0x00 = .stop

/-- Decoding the words of an instruction gives the instruction back, with every operand, and leaves the words after it
(30_encoding.md R85, R86, R88, R90, R95). -/
def Obligations.DecodeInvertsEncode : Prop :=
  ∀ (i : Instr) (rest : List Word), decodeWords (encode i ++ rest) = .ok (i, rest)

/-- Where the fields an instruction does not use are 0, encoding what a slot decodes to gives the slot's words (R95, R106,
decision D17 for the zeros). -/
def Obligations.EncodeInvertsDecode : Prop :=
  ∀ cw imm, unusedFieldsZero cw imm = true → encode (decodeSlot cw imm) = [cw, imm]

/-- Two slots that agree on the opcode and on the field it uses decode to the same instruction: unused fields are ignored (R92,
decision D13). -/
def Obligations.UnusedFieldsIgnored : Prop :=
  ∀ cw imm cw' imm', opcOf cw = opcOf cw' →
    ((Opcode.ofBits (opcOf cw)).uses = .opd → opdOf cw = opdOf cw') →
    ((Opcode.ofBits (opcOf cw)).uses = .imm → imm = imm') →
    decodeSlot cw imm = decodeSlot cw' imm'

/-- R91: which instruction a slot holds depends on OPC alone, every control word decodes to one, and the sixteen codes select
sixteen different instructions, with none left out. -/
def Obligations.OpcodeAloneSelectsInstruction : Prop :=
  (∀ cw imm, (decodeSlot cw imm).opcode = Opcode.ofBits (opcOf cw)) ∧
  (∀ c c', Opcode.ofBits c = Opcode.ofBits c' → c = c') ∧ ∀ o, ∃ c, Opcode.ofBits c = o

/-- Assembling and disassembling agree: a slot is rebuilt from its disassembly whatever its unused fields, and a line the
assembler accepts comes back from the slot it makes (R105 to R107, decision D17). -/
def Obligations.AssemblyRoundTrip : Prop :=
  (∀ cw imm, rebuildSlot (disassemble cw imm) = some (cw, imm)) ∧
  (∀ l : AsmLine, l.wf = true → ∃ cw imm, assemble l = some (cw, imm) ∧
    disassemble cw imm = { l with comment := none }) ∧
  ∀ l : AsmLine, l.wf = false → assemble l = none

/-- The text of a line: a line the assembler accepts, with or without a disassembler's comment, is read back from its text, and
every slot is rebuilt from the text a disassembler prints of it (R16, R105 to R107, decision D17; the radix printed is log
11). -/
def Obligations.AssemblyTextRoundTrip : Prop :=
  (∀ l : AsmLine, l.wf = true → parseLine (printLine l) = some l) ∧
  ∀ cw imm, rebuildText (disassembleText cw imm) = some (cw, imm)

/-! ### Loading and reset -/

/-- Lines load exactly if each is 8 characters `0` or `1` and their number is even, not 0 and at most 256; then word i is the
value of line i (R100, R11; decisions D1, D4, D5). -/
def Obligations.LoadAcceptsExactlyLegalLines : Prop :=
  ∀ (ls : List (List Char)) (ws : List Word), loadLines ls = .ok ws ↔
    ((∀ l ∈ ls, l.length = 8 ∧ ∀ c ∈ l, c = '0' ∨ c = '1') ∧ ls.length ≠ 0 ∧ ls.length % 2 = 0 ∧ ls.length ≤ 256 ∧
      ws = ls.map (fun l => BitVec.ofNat 8 (binaryValue l)))

/-- An image written from words loads as those words (R100, R101; decisions D1, D5, D21). -/
def Obligations.ImageOfWordsLoads : Prop :=
  ∀ ws : List Word, romLengthOk ws.length = true → loadImage (some (imageOfWords ws)) = .ok ws

/-- After boot with a loaded image: L is the number of its words, the ROM reads as them and as nothing beyond, the machine is at
slot 0 with everything else 0, and the invariant holds (R102, R240, R242, R244; decision D18). -/
def Obligations.BootLoadsImage : Prop :=
  ∀ ws : List Word, romLengthOk ws.length = true →
    (State.boot ws).romLen = ws.length ∧ (State.boot ws).slots = ws.length / 2 ∧
    (∀ (a : Nat) (h : a < ws.length), (State.boot ws).romRead a = .ok ws[a]) ∧
    (∀ a, ws.length ≤ a → (State.boot ws).romRead a = .error (.outOfRange .rom a)) ∧
    (State.boot ws).pc = 0#8 ∧
    State.boot ws = { State.reset with rom := (State.boot ws).rom, romLen := ws.length } ∧ (State.boot ws).Inv

/-- `rst` puts every element of the state in its construction value and keeps the ROM, from any state, the fault state included
(R240, R243; decisions D18, D24). -/
def Obligations.RstRestoresConstruction : Prop :=
  ∀ s : State, s.rst.acc = 0#8 ∧ s.rst.rb = 0#8 ∧ s.rst.rc = 0#8 ∧ s.rst.jmp = 0#8 ∧ s.rst.pc = 0#8 ∧ s.rst.outw = 0#8 ∧
    s.rst.outbuf = 0#8 ∧ s.rst.front = 0#1 ∧ s.rst.fault = 0#1 ∧ s.rst.faultKind = 0#2 ∧ s.rst.faultAddr = 0#8 ∧
    (∀ a, a < 256 → s.rst.ramRead a = .ok 0) ∧ (∀ p a, s.rst.readColor p a = 0) ∧ (∀ a, s.rst.frontColor a = 0) ∧
    s.rst.romLen = s.romLen ∧ ∀ a, s.rst.romRead a = s.romRead a

/-! ### Memories -/

/-- A write of ROM or RAM that is in range is read back at its address, leaves every other address alone and touches nothing
else; out of range it raises (20_memory.md R62, R65, R66; decision D22). -/
def Obligations.WordWriteThenRead : Prop :=
  (∀ s a v, a < s.romLen → ∃ t, State.romWrite a v s = .ok t ∧
    (∀ b, t.romRead b = if b = a then .ok v else s.romRead b) ∧ t = { s with rom := t.rom }) ∧
  (∀ s a v, a < 256 → ∃ t, State.ramWrite a v s = .ok t ∧
    (∀ b, t.ramRead b = if b = a then .ok v else s.ramRead b) ∧ t = { s with ram := t.ram }) ∧
  (∀ s a v, s.romLen ≤ a → State.romWrite a v s = .error (.outOfRange .rom a)) ∧
  ∀ s a v, 256 ≤ a → State.ramWrite a v s = .error (.outOfRange .ram a)

/-- A plane write sets the colour of one cell of one plane and nothing else; at 64 or above it raises (R68, whose last sentence
is derived). -/
def Obligations.PlaneWriteSetsOneCell : Prop :=
  (∀ s p (a : CellAddr) c, ∃ t, State.planeWrite p a.toNat c s = .ok t ∧
    (∀ q b, t.readColor q b = if q = p ∧ b = a then c else s.readColor q b) ∧
    t = { s with plane0 := t.plane0, plane1 := t.plane1 }) ∧
  ∀ s p (a : Nat) c, 64 ≤ a → State.planeWrite p a c s = .error (.outOfRange .plane a)

/-- Every write that succeeds keeps the memories in canonical form (the model's own representation). -/
def Obligations.WritesKeepCanonicalForm : Prop :=
  ∀ s t : State, s.memoryWf = true →
    ((∃ a v, State.romWrite a v s = .ok t) ∨ (∃ a v, State.ramWrite a v s = .ok t) ∨
      ∃ p a c, State.planeWrite p a c s = .ok t) → t.memoryWf = true

/-! ### Data instructions -/

/-- R130. -/
def Obligations.NopOnlyAdvances : Prop :=
  Encoded 0x0 (fun _ _ => .nop) ∧
  ∀ s : State, s.Ready → ∃ t, exec .nop s = .next t ∧ NextInOrder s t ∧ t = { s with pc := t.pc } ∧ MemoryUnchanged s t

/-- R131: ACC takes the RAM word at OPD, no exception can occur, and with the RAM all zero ACC becomes 0. -/
def Obligations.LdrLoadsRamWord : Prop :=
  Encoded 0x1 (fun opd _ => .ldr opd) ∧
  ∀ (opd : Nibble) (s : State), s.Ready → ∃ t, exec (.ldr opd) s = .next t ∧ s.ramRead opd.toNat = .ok t.acc ∧
    (s.RamZero → t.acc = 0#8) ∧ NextInOrder s t ∧ t = { s with acc := t.acc, pc := t.pc } ∧ MemoryUnchanged s t

/-- R133 (decision D3: the word is the control word of slot OPD, at 2·OPD): LDM inside the image. -/
def Obligations.LdmLoadsControlWord : Prop :=
  Encoded 0x2 (fun opd _ => .ldm opd) ∧
  ∀ (opd : Nibble) (s : State), s.Ready → opd.toNat < s.slots → ∃ t, exec (.ldm opd) s = .next t ∧
    s.romRead (2 * opd.toNat) = .ok t.acc ∧ NextInOrder s t ∧ t = { s with acc := t.acc, pc := t.pc } ∧ MemoryUnchanged s t

/-- R134, R213 (decisions D3, D12): LDM past the image takes OutOfRange(ROM, 2·OPD). The instruction changes nothing but the
fault status, and its tick makes no pixel write, swap or pulse. -/
def Obligations.LdmPastImageFaults : Prop :=
  (∀ (opd : Nibble) (s : State), s.romLen ≤ 2 * opd.toNat → ∃ t, exec (.ldm opd) s = .next t ∧
    t.fault = 1#1 ∧ t.faultKind = 1#2 ∧ t.faultAddr.toNat = 2 * opd.toNat ∧
    t = { s with fault := t.fault, faultKind := t.faultKind, faultAddr := t.faultAddr } ∧ MemoryUnchanged s t) ∧
  ∀ (opd : Nibble) imm (s : State), s.fault = 0#1 → SlotAt s (0x2#4 ++ opd) imm → s.romLen ≤ 2 * opd.toNat → ∃ t, step s = .next t ∧
    t.fault = 1#1 ∧ t.faultKind = 1#2 ∧ t.faultAddr.toNat = 2 * opd.toNat ∧
    t = { s with fault := t.fault, faultKind := t.faultKind, faultAddr := t.faultAddr,
                 inputs := t.inputs, samples := t.samples }

/-- R135. -/
def Obligations.IncAddsOne : Prop :=
  Encoded 0x3 (fun _ _ => .inc) ∧
  ∀ s : State, s.Ready → ∃ t, exec .inc s = .next t ∧ t.acc.toNat = (s.acc.toNat + 1) % 256 ∧
    NextInOrder s t ∧ t = { s with acc := t.acc, pc := t.pc } ∧ MemoryUnchanged s t

/-- R136, with `mod` the non-negative remainder (R12). -/
def Obligations.DecSubtractsOne : Prop :=
  Encoded 0x4 (fun _ _ => .dec) ∧
  ∀ s : State, s.Ready → ∃ t, exec .dec s = .next t ∧ (t.acc.toNat : Int) = ((s.acc.toNat : Int) - 1) % 256 ∧
    NextInOrder s t ∧ t = { s with acc := t.acc, pc := t.pc } ∧ MemoryUnchanged s t

/-- R137. -/
def Obligations.LdiLoadsImmediate : Prop :=
  Encoded 0x5 (fun _ imm => .ldi imm) ∧
  ∀ imm (s : State), s.Ready → ∃ t, exec (.ldi imm) s = .next t ∧ t.acc = imm ∧
    NextInOrder s t ∧ t = { s with acc := t.acc, pc := t.pc } ∧ MemoryUnchanged s t

/-- R138: RB takes the immediate, and no other instruction sets RB. -/
def Obligations.LdbiLoadsRb : Prop :=
  Encoded 0x6 (fun _ imm => .ldbi imm) ∧
  (∀ imm (s : State), s.Ready → ∃ t, exec (.ldbi imm) s = .next t ∧ t.rb = imm ∧
    NextInOrder s t ∧ t = { s with rb := t.rb, pc := t.pc } ∧ MemoryUnchanged s t) ∧
  ∀ i s t, exec i s = .next t → t.rb ≠ s.rb → ∃ imm, i = .ldbi imm

/-- R139: the sum goes to RC, and ACC and RB are unchanged. -/
def Obligations.AddrAddsIntoRc : Prop :=
  Encoded 0x7 (fun _ _ => .addr) ∧
  ∀ s : State, s.Ready → ∃ t, exec .addr s = .next t ∧ t.rc.toNat = (s.acc.toNat + s.rb.toNat) % 256 ∧
    NextInOrder s t ∧ t = { s with rc := t.rc, pc := t.pc } ∧ MemoryUnchanged s t

/-- R140, with `mod` the non-negative remainder (R12). -/
def Obligations.SubrSubtractsRb : Prop :=
  Encoded 0x8 (fun _ _ => .subr) ∧
  ∀ s : State, s.Ready → ∃ t, exec .subr s = .next t ∧
    (t.acc.toNat : Int) = ((s.acc.toNat : Int) - (s.rb.toNat : Int)) % 256 ∧
    NextInOrder s t ∧ t = { s with acc := t.acc, pc := t.pc } ∧ MemoryUnchanged s t

/-- R141 (decision D15): ACC takes the tick's input sample, which is what the host drives; where the model is told nothing of it,
it is a free value, and the statement holds whatever that is (log 1). -/
def Obligations.InpLoadsSample : Prop :=
  Encoded 0x9 (fun _ _ => .inp) ∧
  ∀ s : State, s.Ready → ∃ t, exec .inp s = .next t ∧ (∀ w rest, s.inputs = w :: rest → t.acc = w) ∧
    (s.inputs = [] → t.acc = Config.freeInput s.samples) ∧
    NextInOrder s t ∧ t = { s with acc := t.acc, pc := t.pc } ∧ MemoryUnchanged s t

/-- R9, R72, R141 (decision D15; the list of driven words is log 1): INP loads the word the host drives, and 0, the default, where
the host gives none; the next tick's sample is the next word so driven; and driving changes nothing but the input port. -/
def Obligations.InpLoadsDrivenOrDefaultWord : Prop :=
  (∀ (s : State) v vs, s.Ready → s.inputs = [] →
    ∃ t, exec .inp (s.drive (v :: vs)) = .next t ∧ t.acc = match v with | some w => w | none => 0#8) ∧
  (∀ (s t : State) v w vs, s.inputs = [] → s.fault = 0#1 → step (s.drive (v :: w :: vs)) = .next t →
    t.inSample = match w with | some u => u | none => 0#8) ∧
  ∀ (s : State) vs, s.drive vs = { s with inputs := (s.drive vs).inputs }

/-! ### Output instructions -/

/-- R160 (decisions D2, D9, D11 and D13, log 5): OUTW takes ACC, and holds it until the next OUT (R38, D9). In the tick that
executes it, ACC = 0 writes no pixel (R173, D11), and ACC = 0xFF sets cell 63 of the back plane to colour 3, the rule's example
(R171, D2). The pixel of any other ACC is CompletedTickUpdatesDisplay. -/
def Obligations.OutCopiesAcc : Prop :=
  Encoded 0xA (fun _ _ => .out) ∧
  (∀ s : State, s.Ready → ∃ t, exec .out s = .next t ∧ t.outw = s.acc ∧
    NextInOrder s t ∧ t = { s with outw := t.outw, pc := t.pc } ∧ MemoryUnchanged s t) ∧
  (∀ i s t, exec i s = .next t → t.outw ≠ s.outw → i = .out) ∧
  ∀ (opd : Nibble) imm (s : State), s.fault = 0#1 → SlotAt s (0xA#4 ++ opd) imm →
    ∃ t, step s = .next t ∧ t.outw = s.acc ∧ (s.acc = 0#8 → ∀ p a, t.readColor p a = s.readColor p a) ∧
      (s.acc = 0xFF#8 → t.readColor (1#1 - s.front) 63#6 = 3#2)

/-- R161 (decisions D9 and D13, log 5): OUTBUF takes the immediate, and holds it until the next OUTB (R39, D9). In the tick that
executes it the planes swap if it is 0xFF and only then; and they swap at every completed tick that leaves OUTBUF at 0xFF
(R178, derived from the holding). -/
def Obligations.OutbWritesSwapWord : Prop :=
  Encoded 0xB (fun _ imm => .outb imm) ∧
  (∀ imm (s : State), s.Ready → ∃ t, exec (.outb imm) s = .next t ∧ t.outbuf = imm ∧
    NextInOrder s t ∧ t = { s with outbuf := t.outbuf, pc := t.pc } ∧ MemoryUnchanged s t) ∧
  (∀ i s t, exec i s = .next t → t.outbuf ≠ s.outbuf → ∃ imm, i = .outb imm) ∧
  (∀ (opd : Nibble) imm (s : State), s.fault = 0#1 → SlotAt s (0xB#4 ++ opd) imm →
    ∃ t, step s = .next t ∧ t.outbuf = imm ∧ t.front = if imm = 0xFF#8 then 1#1 - s.front else s.front) ∧
  ∀ s t : State, step s = .next t → s.fault = 0#1 → t.fault = 0#1 → t.outbuf = 0xFF#8 → t.front = 1#1 - s.front

/-! ### Control transfer -/

/-- R191, R192 (decisions D6, D7): the next slot is OPD + 1, or 0 if OPD + 1 ≥ N. -/
def Obligations.JmpiGoesPastTarget : Prop :=
  Encoded 0xC (fun opd _ => .jmpi opd) ∧
  ∀ (opd : Nibble) (s : State), s.ImageLoaded → ∃ t, exec (.jmpi opd) s = .next t ∧ t.pc.toNat = nextSlot s.slots opd.toNat ∧
    t = { s with pc := t.pc } ∧ MemoryUnchanged s t

/-- R193, R194 (decisions D7, D8): JMP takes the CALL's own slot + 1, with no wrap at N, and the next slot is OPD + 1, or 0 if
OPD + 1 ≥ N. -/
def Obligations.CallSavesReturnSlot : Prop :=
  Encoded 0xD (fun opd _ => .call opd) ∧
  ∀ (opd : Nibble) (s : State), s.Ready → ∃ t, exec (.call opd) s = .next t ∧ t.jmp.toNat = s.pc.toNat + 1 ∧
    t.pc.toNat = nextSlot s.slots opd.toNat ∧ t = { s with jmp := t.jmp, pc := t.pc } ∧ MemoryUnchanged s t

/-- R195, R196 (decision D7): the next slot is JMP + 1, or 0 if JMP + 1 ≥ N, and JMP is unchanged. -/
def Obligations.RetGoesPastReturnSlot : Prop :=
  Encoded 0xE (fun _ _ => .ret) ∧
  ∀ s : State, s.ImageLoaded → ∃ t, exec .ret s = .next t ∧ t.pc.toNat = nextSlot s.slots s.jmp.toNat ∧
    t = { s with pc := t.pc } ∧ MemoryUnchanged s t

/-- R197: PC becomes 0 with no post-step update, from any state, and nothing else changes. -/
def Obligations.StopRestartsAtSlotZero : Prop :=
  Encoded 0xF (fun _ _ => .stop) ∧
  ∀ s : State, ∃ t, exec .stop s = .next t ∧ t.pc = 0#8 ∧ t = { s with pc := t.pc } ∧ MemoryUnchanged s t

/-- R200 (derived; decision D7): after CALL at slot c, a RET that finds the JMP it saved goes to c + 2, or to 0 if that is not a
slot: the slot after the CALL is skipped. -/
def Obligations.ReturnSkipsSlotAfterCall : Prop :=
  ∀ (opd : Nibble) (s v : State), s.Ready → v.romLen = s.romLen → ∃ u, exec (.call opd) s = .next u ∧
    (v.jmp = u.jmp → ∃ w, exec .ret v = .next w ∧
      w.pc.toNat = if s.pc.toNat + 2 ≥ s.slots then 0 else s.pc.toNat + 2)

/-! ### Arithmetic laws -/

/-- R143, for the functions and for the two instructions one after the other. -/
def Obligations.IncThenDecRestoresAcc : Prop :=
  (∀ a, dec8 (inc8 a) = a ∧ inc8 (dec8 a) = a) ∧
  ∀ s : State, ∃ t u, exec .inc s = .next t ∧ exec .dec t = .next u ∧ u.acc = s.acc

/-- R144 (derived; 90_conflicts.md C4): ADDR then SUBR leaves ACC = a - b and RC = a + b, and ACC returns to a only for b = 0. -/
def Obligations.AddrThenSubr : Prop :=
  (∀ a b, sub8 (add8 a b) b = a) ∧
  ∀ s : State, ∃ t u, exec .addr s = .next t ∧ exec .subr t = .next u ∧
    (u.acc.toNat : Int) = ((s.acc.toNat : Int) - (s.rb.toNat : Int)) % 256 ∧
    u.rc.toNat = (s.acc.toNat + s.rb.toNat) % 256 ∧ (u.acc = s.acc ↔ s.rb = 0#8)

/-! ### Who writes what -/

/-- R46 (derived): each register changes only by the instructions its row names; the memories, FRONT and the host's side by none;
the fault status only by LDM. -/
def Obligations.RegisterWriters : Prop :=
  ∀ i s t, exec i s = .next t →
    (t.acc ≠ s.acc → i.opcode ∈ [.ldr, .ldm, .inc, .dec, .ldi, .subr, .inp]) ∧
    (t.rb ≠ s.rb → i.opcode = .ldbi) ∧ (t.rc ≠ s.rc → i.opcode = .addr) ∧ (t.jmp ≠ s.jmp → i.opcode = .call) ∧
    (t.outw ≠ s.outw → i.opcode = .out) ∧ (t.outbuf ≠ s.outbuf → i.opcode = .outb) ∧
    (t.fault ≠ s.fault ∨ t.faultKind ≠ s.faultKind ∨ t.faultAddr ≠ s.faultAddr → i.opcode = .ldm) ∧
    t = { s with acc := t.acc, rb := t.rb, rc := t.rc, jmp := t.jmp, pc := t.pc, outw := t.outw, outbuf := t.outbuf,
                 fault := t.fault, faultKind := t.faultKind, faultAddr := t.faultAddr }

/-- R251: no tick writes the ROM. -/
def Obligations.TickNeverWritesRom : Prop :=
  ∀ s t, step s = .next t → t.romLen = s.romLen ∧ ∀ a, t.romRead a = s.romRead a

/-- R64, R132 (derived; decision D22): no tick writes the RAM, so from a zero RAM every LDR loads 0. -/
def Obligations.TickNeverWritesRam : Prop :=
  (∀ s t, step s = .next t → ∀ a, t.ramRead a = s.ramRead a) ∧
  ∀ s t : State, s.RamZero → step s = .next t → ∀ opd, ∃ u, exec (.ldr opd) t = .next u ∧ u.acc = 0#8

/-! ### The tick -/

/-- R110, R111, R124: where no fault is latched and the words at PC decode to i, the tick is exec of i at the same state and then
the end of the tick: the input sample is consumed, and, unless i raised a fault, the display update runs on the new OUTW and
OUTBUF and one pulse is given. The clauses on inputs, samples and presents rest on logs 1 and 6. -/
def Obligations.StepRunsDecodedInstruction : Prop :=
  ∀ (s : State) cw imm i, s.fault = 0#1 → SlotAt s cw imm → decodeWords [cw, imm] = .ok (i, []) →
    ∃ u t, exec i s = .next u ∧ step s = .next t ∧
      (u.fault = 1#1 → t = { u with inputs := s.inputs.tail, samples := s.samples + 1 }) ∧
      (u.fault = 0#1 → t = { (u.writePixel u.outw).maybeSwap u.outbuf with
        inputs := s.inputs.tail, samples := s.samples + 1, presents := s.presents + 1 })

/-- R122 (derived; decisions D4, D6 behind its premise): with PC a slot of a loaded image, the fetch raises nothing. -/
def Obligations.FetchNeverFaults : Prop :=
  ∀ s : State, s.Ready → ∃ cw imm, SlotAt s cw imm ∧ s.fetch = .ok (cw, imm)

/-- R126, R127: with an image loaded, any number of ticks answers a next state, and a tick does nothing in the fault state and in
no other (that it does something elsewhere rests on the model's count of samples, log 1; the refusal without an image on log 3). -/
def Obligations.NeverHalts : Prop :=
  (∀ k (s : State), s.romLen ≠ 0 → ∃ t, core.run k s = .next t) ∧
  (∀ s : State, s.romLen ≠ 0 → ∃ t, step s = .next t ∧ (t = s ↔ s.fault = 1#1)) ∧
  ∀ s : State, s.romLen = 0 → s.fault = 0#1 → step s = .refused .noImage

/-- R127 (decision D12): once FAULT = 1, no number of ticks changes anything. -/
def Obligations.FaultStateIsSticky : Prop :=
  ∀ k (s : State), s.fault = 1#1 → core.run k s = .next s

/-- R117, R124, R213 (decision D12, log 5): a step that raises writes no register, latch, memory or plane, and its tick makes no
pixel write, swap, render or pulse: beside the fault status only the host's side of the input port (log 1) differs. Raising is
read as a next state with FAULT = 1 (log 4), here a premise; what a raising tick records is said by LdmPastImageFaults and
TakingFaultRecordsIt. -/
def Obligations.FaultingTickWritesNothing : Prop :=
  (∀ i (s t : State), exec i s = .next t → s.fault = 0#1 → t.fault = 1#1 →
    t = { s with fault := 1#1, faultKind := t.faultKind, faultAddr := t.faultAddr }) ∧
  ∀ s t : State, step s = .next t → s.fault = 0#1 → t.fault = 1#1 →
    t = { s with fault := 1#1, faultKind := t.faultKind, faultAddr := t.faultAddr, inputs := t.inputs, samples := t.samples } ∧
    MemoryUnchanged s t ∧ ∀ a, t.frontColor a = s.frontColor a

/-- R44, R210 to R213 (decision D12): what taking each error records, and that it changes nothing else. -/
def Obligations.TakingFaultRecordsIt : Prop :=
  (∀ sp a (s : State), (s.takeFault (.outOfRange sp a)).faultKind = 1#2 ∧
    (s.takeFault (.outOfRange sp a)).faultAddr.toNat = a % 256) ∧
  (∀ opc (s : State), (s.takeFault (.decodeError opc)).faultKind = 2#2 ∧
    (s.takeFault (.decodeError opc)).faultAddr.toNat = opc.toNat) ∧
  ∀ e (s : State), (s.takeFault e).fault = 1#1 ∧
    s.takeFault e = { s with fault := 1#1, faultKind := (s.takeFault e).faultKind, faultAddr := (s.takeFault e).faultAddr }

/-- R122, R134, R212 (derived; decisions D3, D12): in a run only LDM with OPD ≥ N raises a fault, OutOfRange at 2·OPD, and PC
still holds its slot. -/
def Obligations.OnlyLdmFaults : Prop :=
  ∀ s t : State, s.Ready → s.fault = 0#1 → step s = .next t → t.fault = 1#1 →
    ∃ cw imm opd, SlotAt s cw imm ∧ decodeSlot cw imm = .ldm opd ∧ s.slots ≤ opd.toNat ∧
      t.faultKind = 1#2 ∧ t.faultAddr.toNat = 2 * opd.toNat ∧ t.pc = s.pc

/-! ### Invariants and runs -/

/-- Every tick keeps the invariant: a legal ROM length, PC a slot, JMP at most N, a zero RAM, memories in canonical form, and a
fault status a run can reach (R9, R36, R44, R64, R93, R121, R194; derived, decisions D4, D6, D8, D12). -/
def Obligations.InvariantKeptByTick : Prop :=
  ∀ s t : State, s.Inv → step s = .next t → t.Inv

/-- The invariant holds at reset (with no image loaded, log 3). -/
def Obligations.InvariantAtReset : Prop := State.reset.Inv

/-- R121 (derived; decisions D4, D6): at the start of every step PC is a slot of the loaded image. -/
def Obligations.PcStaysInRange : Prop :=
  ∀ s t : State, s.Ready → step s = .next t → t.Ready

/-- R123 (derived): N slots, none of them JMPI, CALL, RET or STOP (and no LDM past the image, which would fault, R134), bring PC
from 0 back to 0 in exactly N ticks. -/
def Obligations.StraightCodeReturnsToSlotZero : Prop :=
  ∀ s : State, s.ImageLoaded → s.fault = 0#1 → s.pc = 0#8 →
    (∀ k cw imm, k < s.slots → s.romRead (2 * k) = .ok cw →
      (decodeSlot cw imm).opcode ∉ [.jmpi, .call, .ret, .stop] ∧
      ∀ opd, decodeSlot cw imm = .ldm opd → opd.toNat < s.slots) →
    ∃ t, core.run s.slots s = .next t ∧ t.pc = 0#8 ∧ t.fault = 0#1

/-! ### The display -/

/-- R172, R175, R184 (decisions D2, D9): after a completed tick, the one cell the new OUTW names in the plane that was back has
its colour unless OUTW is 0, every other cell of both planes is as before, and FRONT is inverted exactly if the new OUTBUF is
0xFF. -/
def Obligations.CompletedTickUpdatesDisplay : Prop :=
  ∀ s t : State, step s = .next t → s.fault = 0#1 → t.fault = 0#1 →
    (∀ p a, t.readColor p a =
      if t.outw ≠ 0#8 ∧ p = 1#1 - s.front ∧ a = pixelAddr t.outw then pixelColor t.outw else s.readColor p a) ∧
    t.front = if t.outbuf = 0xFF#8 then 1#1 - s.front else s.front

/-- R184, R185 (derived): no tick writes the plane that was front at its start, so without a swap the rendered colours stay. -/
def Obligations.FrontPlaneNeverWritten : Prop :=
  ∀ s t : State, step s = .next t → (∀ a, t.readColor s.front a = s.readColor s.front a) ∧
    (t.front = s.front → ∀ a, t.frontColor a = s.frontColor a)

/-- R175, R176: only the all-ones word swaps, a swap changes FRONT alone, and two swaps restore it. -/
def Obligations.SwapIsInvolution : Prop :=
  (∀ (s : State) c, s.maybeSwap c = if c = 0xFF#8 then { s with front := 1#1 - s.front } else s) ∧
  (∀ s : State, (s.maybeSwap 0xFF#8).front ≠ s.front) ∧ ∀ s : State, (s.maybeSwap 0xFF#8).maybeSwap 0xFF#8 = s

/-- R177: the write comes before the swap and the swap before the render, so a tick that does both renders the plane just written,
with the new pixel. -/
def Obligations.SwapShowsPixelJustWritten : Prop :=
  ∀ s t : State, step s = .next t → s.fault = 0#1 → t.fault = 0#1 → t.outbuf = 0xFF#8 →
    t.front = 1#1 - s.front ∧
    ∀ a, t.frontColor a =
      if t.outw ≠ 0#8 ∧ a = pixelAddr t.outw then pixelColor t.outw else s.readColor (1#1 - s.front) a

/-- R43, R171, R179 (decision D2): the pixel codec round-trips both ways, the cell address is x·8 + y, and only (0, 0, 0) is the
sentinel word. -/
def Obligations.PixelCodecRoundTrip : Prop :=
  (∀ x y c, pixelX (pixelWord x y c) = x ∧ pixelY (pixelWord x y c) = y ∧ pixelColor (pixelWord x y c) = c ∧
    (pixelAddr (pixelWord x y c)).toNat = x.toNat * 8 + y.toNat ∧ (pixelWord x y c = 0#8 ↔ x = 0#3 ∧ y = 0#3 ∧ c = 0#2)) ∧
  (∀ w, pixelWord (pixelX w) (pixelY w) (pixelColor w) = w) ∧
  ∀ w, readX (pixelAddr w) = pixelX w ∧ readY (pixelAddr w) = pixelY w

/-- R173 (decisions D2, D11): once cell 0 of a plane is not black, no tick makes it black again; every other cell and colour, and
every other colour of cell 0, has a pixel word that is not the sentinel. -/
def Obligations.CellZeroNeverBlackAgain : Prop :=
  (∀ (s t : State) p, step s = .next t → s.readColor p 0#6 ≠ 0#2 → t.readColor p 0#6 ≠ 0#2) ∧
  ∀ a c, a ≠ 0#6 ∨ c ≠ 0#2 → ∃ w, w ≠ 0#8 ∧ pixelAddr w = a ∧ pixelColor w = c

/-- R181 (decisions D12, D24; the count is log 6): a completed tick gives one `present` pulse, a faulting tick and a tick in the
fault state none. -/
def Obligations.OnePulsePerCompletedTick : Prop :=
  ∀ s t : State, step s = .next t → t.presents = if t.fault = 0#1 then s.presents + 1 else s.presents

/-! ### What nothing can observe -/

/-- R33, R48 (derived): no instruction reads RC: two states that differ in RC alone step to states that differ in RC alone. -/
def Obligations.RcIsUnobservable : Prop :=
  ∀ (s t : State) v, step s = .next t → ∃ v', step (s.setRc v) = .next (t.setRc v')

/-- R48 (derived): no instruction reads the latches, FRONT or the planes: states that differ only in them step to states with the
same CPU registers, PC and fault status. -/
def Obligations.DisplayNeverAffectsCpu : Prop :=
  ∀ (s t : State) p0 p1 f w b n, step s = .next t →
    ∃ u, step { s with plane0 := p0, plane1 := p1, front := f, outw := w, outbuf := b, presents := n } = .next u ∧
      u.acc = t.acc ∧ u.rb = t.rb ∧ u.rc = t.rc ∧ u.jmp = t.jmp ∧ u.pc = t.pc ∧
      u.fault = t.fault ∧ u.faultKind = t.faultKind ∧ u.faultAddr = t.faultAddr

/-- R114 (decision D15): only INP reads the input sample: where the slot at PC is another instruction, the tick does the same
whatever the host drives (the fields inputs and samples are the model's own, log 1). -/
def Obligations.OnlyInpReadsInput : Prop :=
  ∀ (s t : State) cw imm ins n, s.fault = 0#1 → SlotAt s cw imm → (decodeSlot cw imm).opcode ≠ .inp → step s = .next t →
    step { s with inputs := ins, samples := n } = .next { t with inputs := ins.tail, samples := n + 1 }
end

