-- ==== Sys2Proof/Laws/Assembly.lean ====
section
/-! SUPPORT. What the functions over the text of an assembly line can do. -/

namespace Sys2Proof.Machine

/-! ### Splitting a text -/

theorem codeText_append (a b : List Char) (h : ';' ∉ a) : codeText (a ++ b) = a ++ codeText b := by
  induction a with
  | nil => rfl
  | cons c cs ih => simp at h; simp [codeText, ih h.2, Ne.symm h.1]

theorem commentText_append (a b : List Char) (h : ';' ∉ a) : commentText (a ++ b) = commentText b := by
  induction a with
  | nil => rfl
  | cons c cs ih => simp at h; simp [commentText, ih h.2, Ne.symm h.1]

/-- A blank at the end starts no part. -/
theorem partsFrom_append_blank (a cur : List Char) : partsFrom cur (a ++ [' ']) = partsFrom cur a := by
  induction a generalizing cur with
  | nil => simp [partsFrom]
  | cons c cs ih => simp only [List.cons_append, partsFrom, ih]

/-- A text without blanks is one part. -/
theorem partsFrom_word (a cur : List Char) (h : ' ' ∉ a) :
    partsFrom cur a = if cur.reverse ++ a = [] then [] else [cur.reverse ++ a] := by
  induction a generalizing cur with
  | nil => simp [partsFrom]
  | cons c cs ih => simp at h; simp [partsFrom, Ne.symm h.1, ih _ h.2]

/-- A blank ends a part. -/
theorem partsFrom_append (a b : List Char) (h : ' ' ∉ a) (hn : a ≠ []) :
    partsFrom [] (a ++ ' ' :: b) = a :: partsFrom [] b := by
  have key : ∀ cur, cur.reverse ++ a ≠ [] →
      partsFrom cur (a ++ ' ' :: b) = (cur.reverse ++ a) :: partsFrom [] b := by
    clear hn
    induction a with
    | nil => intro cur hc; simp at hc; simp [partsFrom, hc]
    | cons c cs ih => intro cur hc; simp at h; simp [partsFrom, Ne.symm h.1, ih h.2]
  exact key [] hn

/-! ### Reading and printing the parts -/

theorem mnemonicText_no_separator (o : Opcode) : ';' ∉ mnemonicText o ∧ ' ' ∉ mnemonicText o ∧ mnemonicText o ≠ [] := by
  cases o <;> decide

theorem readMnemonic_mnemonicText (o : Opcode) : readMnemonic (mnemonicText o) = some o := by cases o <;> decide

theorem hexDigit_reads : ∀ n : Nibble, digitsFrom 16 0 [hexDigit n] = some n.toNat ∧ hexDigit n ≠ ' ' ∧ hexDigit n ≠ ';' := by
  decide

set_option maxRecDepth 20000 in
theorem hexPair_reads : ∀ w : Word,
    digitsFrom 16 0 [hexDigit (w.extractLsb' 4 4), hexDigit (w.extractLsb' 0 4)] = some w.toNat := by decide

set_option maxRecDepth 20000 in
/-- A printed number reads as itself, as a bare number, and holds no separator. -/
theorem decimalText_reads : ∀ n, n < 256 →
    readNumber (decimalText n) = some n ∧ afterPrefix ['#'] (decimalText n) = none ∧
      ' ' ∉ decimalText n ∧ ';' ∉ decimalText n := by decide

/-! ### A disassembler's comment -/

theorem codeText_commentTextOf (c : Option (Nibble × Word)) :
    codeText (commentTextOf c) = if c = none then [] else [' '] := by
  cases c <;> rfl

theorem readComment_commentTextOf (c : Option (Nibble × Word)) : readComment (commentText (commentTextOf c)) = c := by
  rcases c with _ | ⟨n, w⟩
  · rfl
  · simp [commentTextOf, commentText, readComment, partsFrom, afterPrefix, hexDigit_reads, hexPair_reads]

end Sys2Proof.Machine
end

