-- ==== Sys2Proof/Laws/Cells.lean ====
section
/-! SUPPORT. The laws of a memory held as cells: reading after a write, and the canonical form kept. -/

namespace Sys2Proof

variable {w : Nat}

@[simp] theorem Cells.read_nil (b : Nat) : Cells.read ([] : Cells w) b = 0#w := rfl

theorem Cells.read_erase (m : Cells w) (b c : Nat) :
    Cells.read (Cells.erase m b) c = if c = b then 0#w else Cells.read m c := by
  induction m with
  | nil => simp [Cells.erase]
  | cons x m ih =>
    obtain ⟨a, u⟩ := x
    by_cases hab : a = b
    · by_cases hcb : c = b
      · simp_all [Cells.erase]
      · have : a ≠ c := by omega
        simp_all [Cells.erase, Cells.read]
    · by_cases hac : a = c
      · have : c ≠ b := by omega
        simp [Cells.erase, Cells.read, hac, this]
      · simp [Cells.erase, Cells.read, hab, hac, ih]

/-- A read at another address does not see an insertion. -/
theorem Cells.read_insert_other (m : Cells w) {b c : Nat} (v : BitVec w) (h : c ≠ b) :
    Cells.read (Cells.insert m b v) c = Cells.read m c := by
  induction m with
  | nil => simp [Cells.insert, Cells.read]; omega
  | cons x m ih =>
    obtain ⟨a, u⟩ := x
    by_cases hba : b < a
    · have : b ≠ c := fun e => h e.symm
      simp [Cells.insert, hba, Cells.read, this]
    · simp only [Cells.insert, hba, if_false, Cells.read, ih]

/-- A read at an address with no cell of its own sees what is inserted there. -/
theorem Cells.read_insert_same (m : Cells w) (b : Nat) (v : BitVec w) :
    Cells.read (Cells.insert (Cells.erase m b) b v) b = v := by
  induction m with
  | nil => simp [Cells.erase, Cells.insert, Cells.read]
  | cons x m ih =>
    obtain ⟨a, u⟩ := x
    by_cases hab : a = b
    · simpa [Cells.erase, hab] using ih
    · by_cases hba : b < a
      · simp [Cells.erase, hab, Cells.insert, hba, Cells.read]
      · simp [Cells.erase, hab, Cells.insert, hba, Cells.read, ih]

/-- Reading after a write: the value written at its address, and every other address as before. -/
theorem Cells.read_write (m : Cells w) (b c : Nat) (v : BitVec w) :
    Cells.read (Cells.write m b v) c = if c = b then v else Cells.read m c := by
  unfold Cells.write
  split
  · rename_i hv; subst hv; exact Cells.read_erase m b c
  · split
    · rename_i h; subst h; exact Cells.read_insert_same m c v
    · rename_i h; rw [Cells.read_insert_other _ _ h, Cells.read_erase, if_neg h]

/-! ### The canonical form -/

theorem Cells.wfFrom_cons (size lo a : Nat) (v : BitVec w) (m : Cells w) :
    Cells.wfFrom size lo ((a, v) :: m) = true ↔
      lo ≤ a ∧ a < size ∧ v ≠ 0#w ∧ Cells.wfFrom size (a + 1) m = true := by
  simp [Cells.wfFrom, and_assoc]

/-- A list whose addresses start at `lo` or above also starts at any lower bound. -/
theorem Cells.wfFrom_mono {size lo lo' : Nat} {m : Cells w} (h : lo' ≤ lo) (hm : Cells.wfFrom size lo m = true) :
    Cells.wfFrom size lo' m = true := by
  cases m with
  | nil => rfl
  | cons x m =>
    rw [Cells.wfFrom_cons] at hm ⊢
    exact ⟨by omega, hm.2⟩

theorem Cells.wfFrom_grow {size size' : Nat} (h : size ≤ size') {lo : Nat} {m : Cells w}
    (hm : Cells.wfFrom size lo m = true) : Cells.wfFrom size' lo m = true := by
  induction m generalizing lo with
  | nil => rfl
  | cons x m ih =>
    rw [Cells.wfFrom_cons] at hm ⊢
    exact ⟨hm.1, by omega, hm.2.2.1, ih hm.2.2.2⟩

theorem Cells.wfFrom_erase {size : Nat} (b : Nat) {lo : Nat} {m : Cells w} (hm : Cells.wfFrom size lo m = true) :
    Cells.wfFrom size lo (Cells.erase m b) = true := by
  induction m generalizing lo with
  | nil => rfl
  | cons x m ih =>
    obtain ⟨a, u⟩ := x
    rw [Cells.wfFrom_cons] at hm
    by_cases hab : a = b
    · simpa [Cells.erase, hab] using Cells.wfFrom_mono (by omega) (ih hm.2.2.2)
    · simpa [Cells.erase, hab, Cells.wfFrom_cons] using ⟨hm.1, hm.2.1, hm.2.2.1, ih hm.2.2.2⟩

theorem Cells.wfFrom_insert_erase {size b lo : Nat} {v : BitVec w} {m : Cells w} (hm : Cells.wfFrom size lo m = true)
    (hlo : lo ≤ b) (hb : b < size) (hv : v ≠ 0#w) :
    Cells.wfFrom size lo (Cells.insert (Cells.erase m b) b v) = true := by
  induction m generalizing lo with
  | nil => simp [Cells.erase, Cells.insert, Cells.wfFrom, hlo, hb, hv]
  | cons x m ih =>
    obtain ⟨a, u⟩ := x
    rw [Cells.wfFrom_cons] at hm
    by_cases hab : a = b
    · simpa [Cells.erase, hab] using ih (Cells.wfFrom_mono (by omega) hm.2.2.2) hlo
    · by_cases hba : b < a
      · have := Cells.wfFrom_erase b hm.2.2.2
        simp [Cells.erase, hab, Cells.insert, hba, Cells.wfFrom_cons, hlo, hb, hv, hm.2.1, hm.2.2.1, this]
      · have := ih hm.2.2.2 (by omega)
        simp [Cells.erase, hab, Cells.insert, hba, Cells.wfFrom_cons, hm.1, hm.2.1, hm.2.2.1, this]

/-- A write inside the memory keeps its canonical form. -/
theorem Cells.wf_write {size b : Nat} {m : Cells w} (v : BitVec w) (hm : Cells.wf size m = true) (hb : b < size) :
    Cells.wf size (Cells.write m b v) = true := by
  unfold Cells.write
  split
  · exact Cells.wfFrom_erase b hm
  · exact Cells.wfFrom_insert_erase hm (Nat.zero_le _) hb ‹_›

/-- Above its size a canonical memory lists nothing. -/
theorem Cells.read_of_size_le {size lo : Nat} {m : Cells w} (hm : Cells.wfFrom size lo m = true) {b : Nat}
    (hb : size ≤ b) : Cells.read m b = 0#w := by
  induction m generalizing lo with
  | nil => rfl
  | cons x m ih =>
    obtain ⟨a, u⟩ := x
    rw [Cells.wfFrom_cons] at hm
    have : a ≠ b := by omega
    simp [Cells.read, this, ih hm.2.2.2]

/-- Below its first possible address a canonical memory lists nothing. -/
theorem Cells.read_of_lt {size lo : Nat} {m : Cells w} (hm : Cells.wfFrom size lo m = true) {b : Nat}
    (hb : b < lo) : Cells.read m b = 0#w := by
  induction m generalizing lo with
  | nil => rfl
  | cons x m ih =>
    obtain ⟨a, u⟩ := x
    rw [Cells.wfFrom_cons] at hm
    have : a ≠ b := by omega
    simp [Cells.read, this, ih hm.2.2.2 (by omega)]

/-- Canonical memories that read alike are equal data. -/
theorem Cells.ext_of_wf {size lo lo' : Nat} {m n : Cells w} (hm : Cells.wfFrom size lo m = true)
    (hn : Cells.wfFrom size lo' n = true) (h : ∀ b, Cells.read m b = Cells.read n b) : m = n := by
  induction m generalizing lo lo' n with
  | nil =>
    cases n with
    | nil => rfl
    | cons y n =>
      obtain ⟨c, v⟩ := y
      rw [Cells.wfFrom_cons] at hn
      exact absurd (by simpa [Cells.read] using (h c).symm) hn.2.2.1
  | cons x m ih =>
    obtain ⟨a, u⟩ := x
    rw [Cells.wfFrom_cons] at hm
    cases n with
    | nil => exact absurd (by simpa [Cells.read] using h a) hm.2.2.1
    | cons y n =>
      obtain ⟨c, v⟩ := y
      rw [Cells.wfFrom_cons] at hn
      have hac : a = c := by
        rcases Nat.lt_trichotomy a c with hlt | heq | hgt
        · have ha := h a
          have hca : c ≠ a := by omega
          rw [show Cells.read ((c, v) :: n) a = Cells.read n a by simp [Cells.read, hca],
            Cells.read_of_lt hn.2.2.2 (by omega)] at ha
          exact absurd (by simpa [Cells.read] using ha) hm.2.2.1
        · exact heq
        · have hc := h c
          have hca : a ≠ c := by omega
          rw [show Cells.read ((a, u) :: m) c = Cells.read m c by simp [Cells.read, hca],
            Cells.read_of_lt hm.2.2.2 (by omega)] at hc
          exact absurd (by simpa [Cells.read] using hc.symm) hn.2.2.1
      subst hac
      have huv : u = v := by simpa [Cells.read] using h a
      subst huv
      rw [ih hm.2.2.2 hn.2.2.2 (fun b => ?_)]
      by_cases hb : a = b
      · subst hb
        rw [Cells.read_of_lt hm.2.2.2 (by omega), Cells.read_of_lt hn.2.2.2 (by omega)]
      · simpa [Cells.read, hb] using h b

end Sys2Proof
end

