-- ==== Sys2Proof/Laws/State.lean ====
section
/-! SUPPORT. One lemma per field per update of State, and per accessor an update leaves alone, each true by rfl: later proofs
never unfold a record update. -/

namespace Sys2Proof.Machine

/-! ### setAcc -/

@[simp] theorem State.setAcc_acc (s : State) (v : Word) : (s.setAcc v).acc = v := rfl
@[simp] theorem State.setAcc_rb (s : State) (v : Word) : (s.setAcc v).rb = s.rb := rfl
@[simp] theorem State.setAcc_rc (s : State) (v : Word) : (s.setAcc v).rc = s.rc := rfl
@[simp] theorem State.setAcc_jmp (s : State) (v : Word) : (s.setAcc v).jmp = s.jmp := rfl
@[simp] theorem State.setAcc_pc (s : State) (v : Word) : (s.setAcc v).pc = s.pc := rfl
@[simp] theorem State.setAcc_outw (s : State) (v : Word) : (s.setAcc v).outw = s.outw := rfl
@[simp] theorem State.setAcc_outbuf (s : State) (v : Word) : (s.setAcc v).outbuf = s.outbuf := rfl
@[simp] theorem State.setAcc_ram (s : State) (v : Word) : (s.setAcc v).ram = s.ram := rfl
@[simp] theorem State.setAcc_rom (s : State) (v : Word) : (s.setAcc v).rom = s.rom := rfl
@[simp] theorem State.setAcc_romLen (s : State) (v : Word) : (s.setAcc v).romLen = s.romLen := rfl
@[simp] theorem State.setAcc_plane0 (s : State) (v : Word) : (s.setAcc v).plane0 = s.plane0 := rfl
@[simp] theorem State.setAcc_plane1 (s : State) (v : Word) : (s.setAcc v).plane1 = s.plane1 := rfl
@[simp] theorem State.setAcc_front (s : State) (v : Word) : (s.setAcc v).front = s.front := rfl
@[simp] theorem State.setAcc_fault (s : State) (v : Word) : (s.setAcc v).fault = s.fault := rfl
@[simp] theorem State.setAcc_faultKind (s : State) (v : Word) : (s.setAcc v).faultKind = s.faultKind := rfl
@[simp] theorem State.setAcc_faultAddr (s : State) (v : Word) : (s.setAcc v).faultAddr = s.faultAddr := rfl
@[simp] theorem State.setAcc_inputs (s : State) (v : Word) : (s.setAcc v).inputs = s.inputs := rfl
@[simp] theorem State.setAcc_samples (s : State) (v : Word) : (s.setAcc v).samples = s.samples := rfl
@[simp] theorem State.setAcc_presents (s : State) (v : Word) : (s.setAcc v).presents = s.presents := rfl
@[simp] theorem State.setAcc_slots (s : State) (v : Word) : (s.setAcc v).slots = s.slots := rfl
@[simp] theorem State.setAcc_nextPc (s : State) (v : Word) (q : Word) : (s.setAcc v).nextPc q = s.nextPc q := rfl
@[simp] theorem State.setAcc_plane (s : State) (v : Word) (p' : BitVec 1) : (s.setAcc v).plane p' = s.plane p' := rfl
@[simp] theorem State.setAcc_back (s : State) (v : Word) : (s.setAcc v).back = s.back := rfl
@[simp] theorem State.setAcc_readColor (s : State) (v : Word) (p' : BitVec 1) (a : CellAddr) : (s.setAcc v).readColor p' a = s.readColor p' a := rfl
@[simp] theorem State.setAcc_frontColor (s : State) (v : Word) (a : CellAddr) : (s.setAcc v).frontColor a = s.frontColor a := rfl
@[simp] theorem State.setAcc_romRead (s : State) (v : Word) (a : Nat) : (s.setAcc v).romRead a = s.romRead a := rfl
@[simp] theorem State.setAcc_ramRead (s : State) (v : Word) (a : Nat) : (s.setAcc v).ramRead a = s.ramRead a := rfl
@[simp] theorem State.setAcc_inSample (s : State) (v : Word) : (s.setAcc v).inSample = s.inSample := rfl
@[simp] theorem State.setAcc_memoryWf (s : State) (v : Word) : (s.setAcc v).memoryWf = s.memoryWf := rfl

/-! ### setRb -/

@[simp] theorem State.setRb_acc (s : State) (v : Word) : (s.setRb v).acc = s.acc := rfl
@[simp] theorem State.setRb_rb (s : State) (v : Word) : (s.setRb v).rb = v := rfl
@[simp] theorem State.setRb_rc (s : State) (v : Word) : (s.setRb v).rc = s.rc := rfl
@[simp] theorem State.setRb_jmp (s : State) (v : Word) : (s.setRb v).jmp = s.jmp := rfl
@[simp] theorem State.setRb_pc (s : State) (v : Word) : (s.setRb v).pc = s.pc := rfl
@[simp] theorem State.setRb_outw (s : State) (v : Word) : (s.setRb v).outw = s.outw := rfl
@[simp] theorem State.setRb_outbuf (s : State) (v : Word) : (s.setRb v).outbuf = s.outbuf := rfl
@[simp] theorem State.setRb_ram (s : State) (v : Word) : (s.setRb v).ram = s.ram := rfl
@[simp] theorem State.setRb_rom (s : State) (v : Word) : (s.setRb v).rom = s.rom := rfl
@[simp] theorem State.setRb_romLen (s : State) (v : Word) : (s.setRb v).romLen = s.romLen := rfl
@[simp] theorem State.setRb_plane0 (s : State) (v : Word) : (s.setRb v).plane0 = s.plane0 := rfl
@[simp] theorem State.setRb_plane1 (s : State) (v : Word) : (s.setRb v).plane1 = s.plane1 := rfl
@[simp] theorem State.setRb_front (s : State) (v : Word) : (s.setRb v).front = s.front := rfl
@[simp] theorem State.setRb_fault (s : State) (v : Word) : (s.setRb v).fault = s.fault := rfl
@[simp] theorem State.setRb_faultKind (s : State) (v : Word) : (s.setRb v).faultKind = s.faultKind := rfl
@[simp] theorem State.setRb_faultAddr (s : State) (v : Word) : (s.setRb v).faultAddr = s.faultAddr := rfl
@[simp] theorem State.setRb_inputs (s : State) (v : Word) : (s.setRb v).inputs = s.inputs := rfl
@[simp] theorem State.setRb_samples (s : State) (v : Word) : (s.setRb v).samples = s.samples := rfl
@[simp] theorem State.setRb_presents (s : State) (v : Word) : (s.setRb v).presents = s.presents := rfl
@[simp] theorem State.setRb_slots (s : State) (v : Word) : (s.setRb v).slots = s.slots := rfl
@[simp] theorem State.setRb_nextPc (s : State) (v : Word) (q : Word) : (s.setRb v).nextPc q = s.nextPc q := rfl
@[simp] theorem State.setRb_plane (s : State) (v : Word) (p' : BitVec 1) : (s.setRb v).plane p' = s.plane p' := rfl
@[simp] theorem State.setRb_back (s : State) (v : Word) : (s.setRb v).back = s.back := rfl
@[simp] theorem State.setRb_readColor (s : State) (v : Word) (p' : BitVec 1) (a : CellAddr) : (s.setRb v).readColor p' a = s.readColor p' a := rfl
@[simp] theorem State.setRb_frontColor (s : State) (v : Word) (a : CellAddr) : (s.setRb v).frontColor a = s.frontColor a := rfl
@[simp] theorem State.setRb_romRead (s : State) (v : Word) (a : Nat) : (s.setRb v).romRead a = s.romRead a := rfl
@[simp] theorem State.setRb_ramRead (s : State) (v : Word) (a : Nat) : (s.setRb v).ramRead a = s.ramRead a := rfl
@[simp] theorem State.setRb_inSample (s : State) (v : Word) : (s.setRb v).inSample = s.inSample := rfl
@[simp] theorem State.setRb_memoryWf (s : State) (v : Word) : (s.setRb v).memoryWf = s.memoryWf := rfl

/-! ### setRc -/

@[simp] theorem State.setRc_acc (s : State) (v : Word) : (s.setRc v).acc = s.acc := rfl
@[simp] theorem State.setRc_rb (s : State) (v : Word) : (s.setRc v).rb = s.rb := rfl
@[simp] theorem State.setRc_rc (s : State) (v : Word) : (s.setRc v).rc = v := rfl
@[simp] theorem State.setRc_jmp (s : State) (v : Word) : (s.setRc v).jmp = s.jmp := rfl
@[simp] theorem State.setRc_pc (s : State) (v : Word) : (s.setRc v).pc = s.pc := rfl
@[simp] theorem State.setRc_outw (s : State) (v : Word) : (s.setRc v).outw = s.outw := rfl
@[simp] theorem State.setRc_outbuf (s : State) (v : Word) : (s.setRc v).outbuf = s.outbuf := rfl
@[simp] theorem State.setRc_ram (s : State) (v : Word) : (s.setRc v).ram = s.ram := rfl
@[simp] theorem State.setRc_rom (s : State) (v : Word) : (s.setRc v).rom = s.rom := rfl
@[simp] theorem State.setRc_romLen (s : State) (v : Word) : (s.setRc v).romLen = s.romLen := rfl
@[simp] theorem State.setRc_plane0 (s : State) (v : Word) : (s.setRc v).plane0 = s.plane0 := rfl
@[simp] theorem State.setRc_plane1 (s : State) (v : Word) : (s.setRc v).plane1 = s.plane1 := rfl
@[simp] theorem State.setRc_front (s : State) (v : Word) : (s.setRc v).front = s.front := rfl
@[simp] theorem State.setRc_fault (s : State) (v : Word) : (s.setRc v).fault = s.fault := rfl
@[simp] theorem State.setRc_faultKind (s : State) (v : Word) : (s.setRc v).faultKind = s.faultKind := rfl
@[simp] theorem State.setRc_faultAddr (s : State) (v : Word) : (s.setRc v).faultAddr = s.faultAddr := rfl
@[simp] theorem State.setRc_inputs (s : State) (v : Word) : (s.setRc v).inputs = s.inputs := rfl
@[simp] theorem State.setRc_samples (s : State) (v : Word) : (s.setRc v).samples = s.samples := rfl
@[simp] theorem State.setRc_presents (s : State) (v : Word) : (s.setRc v).presents = s.presents := rfl
@[simp] theorem State.setRc_slots (s : State) (v : Word) : (s.setRc v).slots = s.slots := rfl
@[simp] theorem State.setRc_nextPc (s : State) (v : Word) (q : Word) : (s.setRc v).nextPc q = s.nextPc q := rfl
@[simp] theorem State.setRc_plane (s : State) (v : Word) (p' : BitVec 1) : (s.setRc v).plane p' = s.plane p' := rfl
@[simp] theorem State.setRc_back (s : State) (v : Word) : (s.setRc v).back = s.back := rfl
@[simp] theorem State.setRc_readColor (s : State) (v : Word) (p' : BitVec 1) (a : CellAddr) : (s.setRc v).readColor p' a = s.readColor p' a := rfl
@[simp] theorem State.setRc_frontColor (s : State) (v : Word) (a : CellAddr) : (s.setRc v).frontColor a = s.frontColor a := rfl
@[simp] theorem State.setRc_romRead (s : State) (v : Word) (a : Nat) : (s.setRc v).romRead a = s.romRead a := rfl
@[simp] theorem State.setRc_ramRead (s : State) (v : Word) (a : Nat) : (s.setRc v).ramRead a = s.ramRead a := rfl
@[simp] theorem State.setRc_inSample (s : State) (v : Word) : (s.setRc v).inSample = s.inSample := rfl
@[simp] theorem State.setRc_memoryWf (s : State) (v : Word) : (s.setRc v).memoryWf = s.memoryWf := rfl

/-! ### setJmp -/

@[simp] theorem State.setJmp_acc (s : State) (v : Word) : (s.setJmp v).acc = s.acc := rfl
@[simp] theorem State.setJmp_rb (s : State) (v : Word) : (s.setJmp v).rb = s.rb := rfl
@[simp] theorem State.setJmp_rc (s : State) (v : Word) : (s.setJmp v).rc = s.rc := rfl
@[simp] theorem State.setJmp_jmp (s : State) (v : Word) : (s.setJmp v).jmp = v := rfl
@[simp] theorem State.setJmp_pc (s : State) (v : Word) : (s.setJmp v).pc = s.pc := rfl
@[simp] theorem State.setJmp_outw (s : State) (v : Word) : (s.setJmp v).outw = s.outw := rfl
@[simp] theorem State.setJmp_outbuf (s : State) (v : Word) : (s.setJmp v).outbuf = s.outbuf := rfl
@[simp] theorem State.setJmp_ram (s : State) (v : Word) : (s.setJmp v).ram = s.ram := rfl
@[simp] theorem State.setJmp_rom (s : State) (v : Word) : (s.setJmp v).rom = s.rom := rfl
@[simp] theorem State.setJmp_romLen (s : State) (v : Word) : (s.setJmp v).romLen = s.romLen := rfl
@[simp] theorem State.setJmp_plane0 (s : State) (v : Word) : (s.setJmp v).plane0 = s.plane0 := rfl
@[simp] theorem State.setJmp_plane1 (s : State) (v : Word) : (s.setJmp v).plane1 = s.plane1 := rfl
@[simp] theorem State.setJmp_front (s : State) (v : Word) : (s.setJmp v).front = s.front := rfl
@[simp] theorem State.setJmp_fault (s : State) (v : Word) : (s.setJmp v).fault = s.fault := rfl
@[simp] theorem State.setJmp_faultKind (s : State) (v : Word) : (s.setJmp v).faultKind = s.faultKind := rfl
@[simp] theorem State.setJmp_faultAddr (s : State) (v : Word) : (s.setJmp v).faultAddr = s.faultAddr := rfl
@[simp] theorem State.setJmp_inputs (s : State) (v : Word) : (s.setJmp v).inputs = s.inputs := rfl
@[simp] theorem State.setJmp_samples (s : State) (v : Word) : (s.setJmp v).samples = s.samples := rfl
@[simp] theorem State.setJmp_presents (s : State) (v : Word) : (s.setJmp v).presents = s.presents := rfl
@[simp] theorem State.setJmp_slots (s : State) (v : Word) : (s.setJmp v).slots = s.slots := rfl
@[simp] theorem State.setJmp_nextPc (s : State) (v : Word) (q : Word) : (s.setJmp v).nextPc q = s.nextPc q := rfl
@[simp] theorem State.setJmp_plane (s : State) (v : Word) (p' : BitVec 1) : (s.setJmp v).plane p' = s.plane p' := rfl
@[simp] theorem State.setJmp_back (s : State) (v : Word) : (s.setJmp v).back = s.back := rfl
@[simp] theorem State.setJmp_readColor (s : State) (v : Word) (p' : BitVec 1) (a : CellAddr) : (s.setJmp v).readColor p' a = s.readColor p' a := rfl
@[simp] theorem State.setJmp_frontColor (s : State) (v : Word) (a : CellAddr) : (s.setJmp v).frontColor a = s.frontColor a := rfl
@[simp] theorem State.setJmp_romRead (s : State) (v : Word) (a : Nat) : (s.setJmp v).romRead a = s.romRead a := rfl
@[simp] theorem State.setJmp_ramRead (s : State) (v : Word) (a : Nat) : (s.setJmp v).ramRead a = s.ramRead a := rfl
@[simp] theorem State.setJmp_inSample (s : State) (v : Word) : (s.setJmp v).inSample = s.inSample := rfl
@[simp] theorem State.setJmp_memoryWf (s : State) (v : Word) : (s.setJmp v).memoryWf = s.memoryWf := rfl

/-! ### setPc -/

@[simp] theorem State.setPc_acc (s : State) (v : Word) : (s.setPc v).acc = s.acc := rfl
@[simp] theorem State.setPc_rb (s : State) (v : Word) : (s.setPc v).rb = s.rb := rfl
@[simp] theorem State.setPc_rc (s : State) (v : Word) : (s.setPc v).rc = s.rc := rfl
@[simp] theorem State.setPc_jmp (s : State) (v : Word) : (s.setPc v).jmp = s.jmp := rfl
@[simp] theorem State.setPc_pc (s : State) (v : Word) : (s.setPc v).pc = v := rfl
@[simp] theorem State.setPc_outw (s : State) (v : Word) : (s.setPc v).outw = s.outw := rfl
@[simp] theorem State.setPc_outbuf (s : State) (v : Word) : (s.setPc v).outbuf = s.outbuf := rfl
@[simp] theorem State.setPc_ram (s : State) (v : Word) : (s.setPc v).ram = s.ram := rfl
@[simp] theorem State.setPc_rom (s : State) (v : Word) : (s.setPc v).rom = s.rom := rfl
@[simp] theorem State.setPc_romLen (s : State) (v : Word) : (s.setPc v).romLen = s.romLen := rfl
@[simp] theorem State.setPc_plane0 (s : State) (v : Word) : (s.setPc v).plane0 = s.plane0 := rfl
@[simp] theorem State.setPc_plane1 (s : State) (v : Word) : (s.setPc v).plane1 = s.plane1 := rfl
@[simp] theorem State.setPc_front (s : State) (v : Word) : (s.setPc v).front = s.front := rfl
@[simp] theorem State.setPc_fault (s : State) (v : Word) : (s.setPc v).fault = s.fault := rfl
@[simp] theorem State.setPc_faultKind (s : State) (v : Word) : (s.setPc v).faultKind = s.faultKind := rfl
@[simp] theorem State.setPc_faultAddr (s : State) (v : Word) : (s.setPc v).faultAddr = s.faultAddr := rfl
@[simp] theorem State.setPc_inputs (s : State) (v : Word) : (s.setPc v).inputs = s.inputs := rfl
@[simp] theorem State.setPc_samples (s : State) (v : Word) : (s.setPc v).samples = s.samples := rfl
@[simp] theorem State.setPc_presents (s : State) (v : Word) : (s.setPc v).presents = s.presents := rfl
@[simp] theorem State.setPc_slots (s : State) (v : Word) : (s.setPc v).slots = s.slots := rfl
@[simp] theorem State.setPc_nextPc (s : State) (v : Word) (q : Word) : (s.setPc v).nextPc q = s.nextPc q := rfl
@[simp] theorem State.setPc_plane (s : State) (v : Word) (p' : BitVec 1) : (s.setPc v).plane p' = s.plane p' := rfl
@[simp] theorem State.setPc_back (s : State) (v : Word) : (s.setPc v).back = s.back := rfl
@[simp] theorem State.setPc_readColor (s : State) (v : Word) (p' : BitVec 1) (a : CellAddr) : (s.setPc v).readColor p' a = s.readColor p' a := rfl
@[simp] theorem State.setPc_frontColor (s : State) (v : Word) (a : CellAddr) : (s.setPc v).frontColor a = s.frontColor a := rfl
@[simp] theorem State.setPc_romRead (s : State) (v : Word) (a : Nat) : (s.setPc v).romRead a = s.romRead a := rfl
@[simp] theorem State.setPc_ramRead (s : State) (v : Word) (a : Nat) : (s.setPc v).ramRead a = s.ramRead a := rfl
@[simp] theorem State.setPc_inSample (s : State) (v : Word) : (s.setPc v).inSample = s.inSample := rfl
@[simp] theorem State.setPc_memoryWf (s : State) (v : Word) : (s.setPc v).memoryWf = s.memoryWf := rfl

/-! ### setOutw -/

@[simp] theorem State.setOutw_acc (s : State) (v : Word) : (s.setOutw v).acc = s.acc := rfl
@[simp] theorem State.setOutw_rb (s : State) (v : Word) : (s.setOutw v).rb = s.rb := rfl
@[simp] theorem State.setOutw_rc (s : State) (v : Word) : (s.setOutw v).rc = s.rc := rfl
@[simp] theorem State.setOutw_jmp (s : State) (v : Word) : (s.setOutw v).jmp = s.jmp := rfl
@[simp] theorem State.setOutw_pc (s : State) (v : Word) : (s.setOutw v).pc = s.pc := rfl
@[simp] theorem State.setOutw_outw (s : State) (v : Word) : (s.setOutw v).outw = v := rfl
@[simp] theorem State.setOutw_outbuf (s : State) (v : Word) : (s.setOutw v).outbuf = s.outbuf := rfl
@[simp] theorem State.setOutw_ram (s : State) (v : Word) : (s.setOutw v).ram = s.ram := rfl
@[simp] theorem State.setOutw_rom (s : State) (v : Word) : (s.setOutw v).rom = s.rom := rfl
@[simp] theorem State.setOutw_romLen (s : State) (v : Word) : (s.setOutw v).romLen = s.romLen := rfl
@[simp] theorem State.setOutw_plane0 (s : State) (v : Word) : (s.setOutw v).plane0 = s.plane0 := rfl
@[simp] theorem State.setOutw_plane1 (s : State) (v : Word) : (s.setOutw v).plane1 = s.plane1 := rfl
@[simp] theorem State.setOutw_front (s : State) (v : Word) : (s.setOutw v).front = s.front := rfl
@[simp] theorem State.setOutw_fault (s : State) (v : Word) : (s.setOutw v).fault = s.fault := rfl
@[simp] theorem State.setOutw_faultKind (s : State) (v : Word) : (s.setOutw v).faultKind = s.faultKind := rfl
@[simp] theorem State.setOutw_faultAddr (s : State) (v : Word) : (s.setOutw v).faultAddr = s.faultAddr := rfl
@[simp] theorem State.setOutw_inputs (s : State) (v : Word) : (s.setOutw v).inputs = s.inputs := rfl
@[simp] theorem State.setOutw_samples (s : State) (v : Word) : (s.setOutw v).samples = s.samples := rfl
@[simp] theorem State.setOutw_presents (s : State) (v : Word) : (s.setOutw v).presents = s.presents := rfl
@[simp] theorem State.setOutw_slots (s : State) (v : Word) : (s.setOutw v).slots = s.slots := rfl
@[simp] theorem State.setOutw_nextPc (s : State) (v : Word) (q : Word) : (s.setOutw v).nextPc q = s.nextPc q := rfl
@[simp] theorem State.setOutw_plane (s : State) (v : Word) (p' : BitVec 1) : (s.setOutw v).plane p' = s.plane p' := rfl
@[simp] theorem State.setOutw_back (s : State) (v : Word) : (s.setOutw v).back = s.back := rfl
@[simp] theorem State.setOutw_readColor (s : State) (v : Word) (p' : BitVec 1) (a : CellAddr) : (s.setOutw v).readColor p' a = s.readColor p' a := rfl
@[simp] theorem State.setOutw_frontColor (s : State) (v : Word) (a : CellAddr) : (s.setOutw v).frontColor a = s.frontColor a := rfl
@[simp] theorem State.setOutw_romRead (s : State) (v : Word) (a : Nat) : (s.setOutw v).romRead a = s.romRead a := rfl
@[simp] theorem State.setOutw_ramRead (s : State) (v : Word) (a : Nat) : (s.setOutw v).ramRead a = s.ramRead a := rfl
@[simp] theorem State.setOutw_inSample (s : State) (v : Word) : (s.setOutw v).inSample = s.inSample := rfl
@[simp] theorem State.setOutw_memoryWf (s : State) (v : Word) : (s.setOutw v).memoryWf = s.memoryWf := rfl

/-! ### setOutbuf -/

@[simp] theorem State.setOutbuf_acc (s : State) (v : Word) : (s.setOutbuf v).acc = s.acc := rfl
@[simp] theorem State.setOutbuf_rb (s : State) (v : Word) : (s.setOutbuf v).rb = s.rb := rfl
@[simp] theorem State.setOutbuf_rc (s : State) (v : Word) : (s.setOutbuf v).rc = s.rc := rfl
@[simp] theorem State.setOutbuf_jmp (s : State) (v : Word) : (s.setOutbuf v).jmp = s.jmp := rfl
@[simp] theorem State.setOutbuf_pc (s : State) (v : Word) : (s.setOutbuf v).pc = s.pc := rfl
@[simp] theorem State.setOutbuf_outw (s : State) (v : Word) : (s.setOutbuf v).outw = s.outw := rfl
@[simp] theorem State.setOutbuf_outbuf (s : State) (v : Word) : (s.setOutbuf v).outbuf = v := rfl
@[simp] theorem State.setOutbuf_ram (s : State) (v : Word) : (s.setOutbuf v).ram = s.ram := rfl
@[simp] theorem State.setOutbuf_rom (s : State) (v : Word) : (s.setOutbuf v).rom = s.rom := rfl
@[simp] theorem State.setOutbuf_romLen (s : State) (v : Word) : (s.setOutbuf v).romLen = s.romLen := rfl
@[simp] theorem State.setOutbuf_plane0 (s : State) (v : Word) : (s.setOutbuf v).plane0 = s.plane0 := rfl
@[simp] theorem State.setOutbuf_plane1 (s : State) (v : Word) : (s.setOutbuf v).plane1 = s.plane1 := rfl
@[simp] theorem State.setOutbuf_front (s : State) (v : Word) : (s.setOutbuf v).front = s.front := rfl
@[simp] theorem State.setOutbuf_fault (s : State) (v : Word) : (s.setOutbuf v).fault = s.fault := rfl
@[simp] theorem State.setOutbuf_faultKind (s : State) (v : Word) : (s.setOutbuf v).faultKind = s.faultKind := rfl
@[simp] theorem State.setOutbuf_faultAddr (s : State) (v : Word) : (s.setOutbuf v).faultAddr = s.faultAddr := rfl
@[simp] theorem State.setOutbuf_inputs (s : State) (v : Word) : (s.setOutbuf v).inputs = s.inputs := rfl
@[simp] theorem State.setOutbuf_samples (s : State) (v : Word) : (s.setOutbuf v).samples = s.samples := rfl
@[simp] theorem State.setOutbuf_presents (s : State) (v : Word) : (s.setOutbuf v).presents = s.presents := rfl
@[simp] theorem State.setOutbuf_slots (s : State) (v : Word) : (s.setOutbuf v).slots = s.slots := rfl
@[simp] theorem State.setOutbuf_nextPc (s : State) (v : Word) (q : Word) : (s.setOutbuf v).nextPc q = s.nextPc q := rfl
@[simp] theorem State.setOutbuf_plane (s : State) (v : Word) (p' : BitVec 1) : (s.setOutbuf v).plane p' = s.plane p' := rfl
@[simp] theorem State.setOutbuf_back (s : State) (v : Word) : (s.setOutbuf v).back = s.back := rfl
@[simp] theorem State.setOutbuf_readColor (s : State) (v : Word) (p' : BitVec 1) (a : CellAddr) : (s.setOutbuf v).readColor p' a = s.readColor p' a := rfl
@[simp] theorem State.setOutbuf_frontColor (s : State) (v : Word) (a : CellAddr) : (s.setOutbuf v).frontColor a = s.frontColor a := rfl
@[simp] theorem State.setOutbuf_romRead (s : State) (v : Word) (a : Nat) : (s.setOutbuf v).romRead a = s.romRead a := rfl
@[simp] theorem State.setOutbuf_ramRead (s : State) (v : Word) (a : Nat) : (s.setOutbuf v).ramRead a = s.ramRead a := rfl
@[simp] theorem State.setOutbuf_inSample (s : State) (v : Word) : (s.setOutbuf v).inSample = s.inSample := rfl
@[simp] theorem State.setOutbuf_memoryWf (s : State) (v : Word) : (s.setOutbuf v).memoryWf = s.memoryWf := rfl

/-! ### setFront -/

@[simp] theorem State.setFront_acc (s : State) (v : BitVec 1) : (s.setFront v).acc = s.acc := rfl
@[simp] theorem State.setFront_rb (s : State) (v : BitVec 1) : (s.setFront v).rb = s.rb := rfl
@[simp] theorem State.setFront_rc (s : State) (v : BitVec 1) : (s.setFront v).rc = s.rc := rfl
@[simp] theorem State.setFront_jmp (s : State) (v : BitVec 1) : (s.setFront v).jmp = s.jmp := rfl
@[simp] theorem State.setFront_pc (s : State) (v : BitVec 1) : (s.setFront v).pc = s.pc := rfl
@[simp] theorem State.setFront_outw (s : State) (v : BitVec 1) : (s.setFront v).outw = s.outw := rfl
@[simp] theorem State.setFront_outbuf (s : State) (v : BitVec 1) : (s.setFront v).outbuf = s.outbuf := rfl
@[simp] theorem State.setFront_ram (s : State) (v : BitVec 1) : (s.setFront v).ram = s.ram := rfl
@[simp] theorem State.setFront_rom (s : State) (v : BitVec 1) : (s.setFront v).rom = s.rom := rfl
@[simp] theorem State.setFront_romLen (s : State) (v : BitVec 1) : (s.setFront v).romLen = s.romLen := rfl
@[simp] theorem State.setFront_plane0 (s : State) (v : BitVec 1) : (s.setFront v).plane0 = s.plane0 := rfl
@[simp] theorem State.setFront_plane1 (s : State) (v : BitVec 1) : (s.setFront v).plane1 = s.plane1 := rfl
@[simp] theorem State.setFront_front (s : State) (v : BitVec 1) : (s.setFront v).front = v := rfl
@[simp] theorem State.setFront_fault (s : State) (v : BitVec 1) : (s.setFront v).fault = s.fault := rfl
@[simp] theorem State.setFront_faultKind (s : State) (v : BitVec 1) : (s.setFront v).faultKind = s.faultKind := rfl
@[simp] theorem State.setFront_faultAddr (s : State) (v : BitVec 1) : (s.setFront v).faultAddr = s.faultAddr := rfl
@[simp] theorem State.setFront_inputs (s : State) (v : BitVec 1) : (s.setFront v).inputs = s.inputs := rfl
@[simp] theorem State.setFront_samples (s : State) (v : BitVec 1) : (s.setFront v).samples = s.samples := rfl
@[simp] theorem State.setFront_presents (s : State) (v : BitVec 1) : (s.setFront v).presents = s.presents := rfl
@[simp] theorem State.setFront_slots (s : State) (v : BitVec 1) : (s.setFront v).slots = s.slots := rfl
@[simp] theorem State.setFront_nextPc (s : State) (v : BitVec 1) (q : Word) : (s.setFront v).nextPc q = s.nextPc q := rfl
@[simp] theorem State.setFront_plane (s : State) (v : BitVec 1) (p' : BitVec 1) : (s.setFront v).plane p' = s.plane p' := rfl
@[simp] theorem State.setFront_readColor (s : State) (v : BitVec 1) (p' : BitVec 1) (a : CellAddr) : (s.setFront v).readColor p' a = s.readColor p' a := rfl
@[simp] theorem State.setFront_romRead (s : State) (v : BitVec 1) (a : Nat) : (s.setFront v).romRead a = s.romRead a := rfl
@[simp] theorem State.setFront_ramRead (s : State) (v : BitVec 1) (a : Nat) : (s.setFront v).ramRead a = s.ramRead a := rfl
@[simp] theorem State.setFront_inSample (s : State) (v : BitVec 1) : (s.setFront v).inSample = s.inSample := rfl
@[simp] theorem State.setFront_memoryWf (s : State) (v : BitVec 1) : (s.setFront v).memoryWf = s.memoryWf := rfl

/-! ### setRam -/

@[simp] theorem State.setRam_acc (s : State) (m : Memory) : (s.setRam m).acc = s.acc := rfl
@[simp] theorem State.setRam_rb (s : State) (m : Memory) : (s.setRam m).rb = s.rb := rfl
@[simp] theorem State.setRam_rc (s : State) (m : Memory) : (s.setRam m).rc = s.rc := rfl
@[simp] theorem State.setRam_jmp (s : State) (m : Memory) : (s.setRam m).jmp = s.jmp := rfl
@[simp] theorem State.setRam_pc (s : State) (m : Memory) : (s.setRam m).pc = s.pc := rfl
@[simp] theorem State.setRam_outw (s : State) (m : Memory) : (s.setRam m).outw = s.outw := rfl
@[simp] theorem State.setRam_outbuf (s : State) (m : Memory) : (s.setRam m).outbuf = s.outbuf := rfl
@[simp] theorem State.setRam_ram (s : State) (m : Memory) : (s.setRam m).ram = m := rfl
@[simp] theorem State.setRam_rom (s : State) (m : Memory) : (s.setRam m).rom = s.rom := rfl
@[simp] theorem State.setRam_romLen (s : State) (m : Memory) : (s.setRam m).romLen = s.romLen := rfl
@[simp] theorem State.setRam_plane0 (s : State) (m : Memory) : (s.setRam m).plane0 = s.plane0 := rfl
@[simp] theorem State.setRam_plane1 (s : State) (m : Memory) : (s.setRam m).plane1 = s.plane1 := rfl
@[simp] theorem State.setRam_front (s : State) (m : Memory) : (s.setRam m).front = s.front := rfl
@[simp] theorem State.setRam_fault (s : State) (m : Memory) : (s.setRam m).fault = s.fault := rfl
@[simp] theorem State.setRam_faultKind (s : State) (m : Memory) : (s.setRam m).faultKind = s.faultKind := rfl
@[simp] theorem State.setRam_faultAddr (s : State) (m : Memory) : (s.setRam m).faultAddr = s.faultAddr := rfl
@[simp] theorem State.setRam_inputs (s : State) (m : Memory) : (s.setRam m).inputs = s.inputs := rfl
@[simp] theorem State.setRam_samples (s : State) (m : Memory) : (s.setRam m).samples = s.samples := rfl
@[simp] theorem State.setRam_presents (s : State) (m : Memory) : (s.setRam m).presents = s.presents := rfl
@[simp] theorem State.setRam_slots (s : State) (m : Memory) : (s.setRam m).slots = s.slots := rfl
@[simp] theorem State.setRam_nextPc (s : State) (m : Memory) (q : Word) : (s.setRam m).nextPc q = s.nextPc q := rfl
@[simp] theorem State.setRam_plane (s : State) (m : Memory) (p' : BitVec 1) : (s.setRam m).plane p' = s.plane p' := rfl
@[simp] theorem State.setRam_back (s : State) (m : Memory) : (s.setRam m).back = s.back := rfl
@[simp] theorem State.setRam_readColor (s : State) (m : Memory) (p' : BitVec 1) (a : CellAddr) : (s.setRam m).readColor p' a = s.readColor p' a := rfl
@[simp] theorem State.setRam_frontColor (s : State) (m : Memory) (a : CellAddr) : (s.setRam m).frontColor a = s.frontColor a := rfl
@[simp] theorem State.setRam_romRead (s : State) (m : Memory) (a : Nat) : (s.setRam m).romRead a = s.romRead a := rfl
@[simp] theorem State.setRam_inSample (s : State) (m : Memory) : (s.setRam m).inSample = s.inSample := rfl

/-! ### setRom -/

@[simp] theorem State.setRom_acc (s : State) (m : Memory) : (s.setRom m).acc = s.acc := rfl
@[simp] theorem State.setRom_rb (s : State) (m : Memory) : (s.setRom m).rb = s.rb := rfl
@[simp] theorem State.setRom_rc (s : State) (m : Memory) : (s.setRom m).rc = s.rc := rfl
@[simp] theorem State.setRom_jmp (s : State) (m : Memory) : (s.setRom m).jmp = s.jmp := rfl
@[simp] theorem State.setRom_pc (s : State) (m : Memory) : (s.setRom m).pc = s.pc := rfl
@[simp] theorem State.setRom_outw (s : State) (m : Memory) : (s.setRom m).outw = s.outw := rfl
@[simp] theorem State.setRom_outbuf (s : State) (m : Memory) : (s.setRom m).outbuf = s.outbuf := rfl
@[simp] theorem State.setRom_ram (s : State) (m : Memory) : (s.setRom m).ram = s.ram := rfl
@[simp] theorem State.setRom_rom (s : State) (m : Memory) : (s.setRom m).rom = m := rfl
@[simp] theorem State.setRom_romLen (s : State) (m : Memory) : (s.setRom m).romLen = s.romLen := rfl
@[simp] theorem State.setRom_plane0 (s : State) (m : Memory) : (s.setRom m).plane0 = s.plane0 := rfl
@[simp] theorem State.setRom_plane1 (s : State) (m : Memory) : (s.setRom m).plane1 = s.plane1 := rfl
@[simp] theorem State.setRom_front (s : State) (m : Memory) : (s.setRom m).front = s.front := rfl
@[simp] theorem State.setRom_fault (s : State) (m : Memory) : (s.setRom m).fault = s.fault := rfl
@[simp] theorem State.setRom_faultKind (s : State) (m : Memory) : (s.setRom m).faultKind = s.faultKind := rfl
@[simp] theorem State.setRom_faultAddr (s : State) (m : Memory) : (s.setRom m).faultAddr = s.faultAddr := rfl
@[simp] theorem State.setRom_inputs (s : State) (m : Memory) : (s.setRom m).inputs = s.inputs := rfl
@[simp] theorem State.setRom_samples (s : State) (m : Memory) : (s.setRom m).samples = s.samples := rfl
@[simp] theorem State.setRom_presents (s : State) (m : Memory) : (s.setRom m).presents = s.presents := rfl
@[simp] theorem State.setRom_slots (s : State) (m : Memory) : (s.setRom m).slots = s.slots := rfl
@[simp] theorem State.setRom_nextPc (s : State) (m : Memory) (q : Word) : (s.setRom m).nextPc q = s.nextPc q := rfl
@[simp] theorem State.setRom_plane (s : State) (m : Memory) (p' : BitVec 1) : (s.setRom m).plane p' = s.plane p' := rfl
@[simp] theorem State.setRom_back (s : State) (m : Memory) : (s.setRom m).back = s.back := rfl
@[simp] theorem State.setRom_readColor (s : State) (m : Memory) (p' : BitVec 1) (a : CellAddr) : (s.setRom m).readColor p' a = s.readColor p' a := rfl
@[simp] theorem State.setRom_frontColor (s : State) (m : Memory) (a : CellAddr) : (s.setRom m).frontColor a = s.frontColor a := rfl
@[simp] theorem State.setRom_ramRead (s : State) (m : Memory) (a : Nat) : (s.setRom m).ramRead a = s.ramRead a := rfl
@[simp] theorem State.setRom_inSample (s : State) (m : Memory) : (s.setRom m).inSample = s.inSample := rfl

/-! ### takeFault -/

@[simp] theorem State.takeFault_acc (s : State) (e : Fault) : (s.takeFault e).acc = s.acc := rfl
@[simp] theorem State.takeFault_rb (s : State) (e : Fault) : (s.takeFault e).rb = s.rb := rfl
@[simp] theorem State.takeFault_rc (s : State) (e : Fault) : (s.takeFault e).rc = s.rc := rfl
@[simp] theorem State.takeFault_jmp (s : State) (e : Fault) : (s.takeFault e).jmp = s.jmp := rfl
@[simp] theorem State.takeFault_pc (s : State) (e : Fault) : (s.takeFault e).pc = s.pc := rfl
@[simp] theorem State.takeFault_outw (s : State) (e : Fault) : (s.takeFault e).outw = s.outw := rfl
@[simp] theorem State.takeFault_outbuf (s : State) (e : Fault) : (s.takeFault e).outbuf = s.outbuf := rfl
@[simp] theorem State.takeFault_ram (s : State) (e : Fault) : (s.takeFault e).ram = s.ram := rfl
@[simp] theorem State.takeFault_rom (s : State) (e : Fault) : (s.takeFault e).rom = s.rom := rfl
@[simp] theorem State.takeFault_romLen (s : State) (e : Fault) : (s.takeFault e).romLen = s.romLen := rfl
@[simp] theorem State.takeFault_plane0 (s : State) (e : Fault) : (s.takeFault e).plane0 = s.plane0 := rfl
@[simp] theorem State.takeFault_plane1 (s : State) (e : Fault) : (s.takeFault e).plane1 = s.plane1 := rfl
@[simp] theorem State.takeFault_front (s : State) (e : Fault) : (s.takeFault e).front = s.front := rfl
@[simp] theorem State.takeFault_fault (s : State) (e : Fault) : (s.takeFault e).fault = 1#1 := rfl
@[simp] theorem State.takeFault_faultKind (s : State) (e : Fault) : (s.takeFault e).faultKind = e.kind := rfl
@[simp] theorem State.takeFault_faultAddr (s : State) (e : Fault) : (s.takeFault e).faultAddr = e.info := rfl
@[simp] theorem State.takeFault_inputs (s : State) (e : Fault) : (s.takeFault e).inputs = s.inputs := rfl
@[simp] theorem State.takeFault_samples (s : State) (e : Fault) : (s.takeFault e).samples = s.samples := rfl
@[simp] theorem State.takeFault_presents (s : State) (e : Fault) : (s.takeFault e).presents = s.presents := rfl
@[simp] theorem State.takeFault_slots (s : State) (e : Fault) : (s.takeFault e).slots = s.slots := rfl
@[simp] theorem State.takeFault_nextPc (s : State) (e : Fault) (q : Word) : (s.takeFault e).nextPc q = s.nextPc q := rfl
@[simp] theorem State.takeFault_plane (s : State) (e : Fault) (p' : BitVec 1) : (s.takeFault e).plane p' = s.plane p' := rfl
@[simp] theorem State.takeFault_back (s : State) (e : Fault) : (s.takeFault e).back = s.back := rfl
@[simp] theorem State.takeFault_readColor (s : State) (e : Fault) (p' : BitVec 1) (a : CellAddr) : (s.takeFault e).readColor p' a = s.readColor p' a := rfl
@[simp] theorem State.takeFault_frontColor (s : State) (e : Fault) (a : CellAddr) : (s.takeFault e).frontColor a = s.frontColor a := rfl
@[simp] theorem State.takeFault_romRead (s : State) (e : Fault) (a : Nat) : (s.takeFault e).romRead a = s.romRead a := rfl
@[simp] theorem State.takeFault_ramRead (s : State) (e : Fault) (a : Nat) : (s.takeFault e).ramRead a = s.ramRead a := rfl
@[simp] theorem State.takeFault_inSample (s : State) (e : Fault) : (s.takeFault e).inSample = s.inSample := rfl
@[simp] theorem State.takeFault_memoryWf (s : State) (e : Fault) : (s.takeFault e).memoryWf = s.memoryWf := rfl

/-! ### advance -/

@[simp] theorem State.advance_acc (s : State) (p : Word) : (s.advance p).acc = s.acc := rfl
@[simp] theorem State.advance_rb (s : State) (p : Word) : (s.advance p).rb = s.rb := rfl
@[simp] theorem State.advance_rc (s : State) (p : Word) : (s.advance p).rc = s.rc := rfl
@[simp] theorem State.advance_jmp (s : State) (p : Word) : (s.advance p).jmp = s.jmp := rfl
@[simp] theorem State.advance_pc (s : State) (p : Word) : (s.advance p).pc = s.nextPc p := rfl
@[simp] theorem State.advance_outw (s : State) (p : Word) : (s.advance p).outw = s.outw := rfl
@[simp] theorem State.advance_outbuf (s : State) (p : Word) : (s.advance p).outbuf = s.outbuf := rfl
@[simp] theorem State.advance_ram (s : State) (p : Word) : (s.advance p).ram = s.ram := rfl
@[simp] theorem State.advance_rom (s : State) (p : Word) : (s.advance p).rom = s.rom := rfl
@[simp] theorem State.advance_romLen (s : State) (p : Word) : (s.advance p).romLen = s.romLen := rfl
@[simp] theorem State.advance_plane0 (s : State) (p : Word) : (s.advance p).plane0 = s.plane0 := rfl
@[simp] theorem State.advance_plane1 (s : State) (p : Word) : (s.advance p).plane1 = s.plane1 := rfl
@[simp] theorem State.advance_front (s : State) (p : Word) : (s.advance p).front = s.front := rfl
@[simp] theorem State.advance_fault (s : State) (p : Word) : (s.advance p).fault = s.fault := rfl
@[simp] theorem State.advance_faultKind (s : State) (p : Word) : (s.advance p).faultKind = s.faultKind := rfl
@[simp] theorem State.advance_faultAddr (s : State) (p : Word) : (s.advance p).faultAddr = s.faultAddr := rfl
@[simp] theorem State.advance_inputs (s : State) (p : Word) : (s.advance p).inputs = s.inputs := rfl
@[simp] theorem State.advance_samples (s : State) (p : Word) : (s.advance p).samples = s.samples := rfl
@[simp] theorem State.advance_presents (s : State) (p : Word) : (s.advance p).presents = s.presents := rfl
@[simp] theorem State.advance_slots (s : State) (p : Word) : (s.advance p).slots = s.slots := rfl
@[simp] theorem State.advance_nextPc (s : State) (p : Word) (q : Word) : (s.advance p).nextPc q = s.nextPc q := rfl
@[simp] theorem State.advance_plane (s : State) (p : Word) (p' : BitVec 1) : (s.advance p).plane p' = s.plane p' := rfl
@[simp] theorem State.advance_back (s : State) (p : Word) : (s.advance p).back = s.back := rfl
@[simp] theorem State.advance_readColor (s : State) (p : Word) (p' : BitVec 1) (a : CellAddr) : (s.advance p).readColor p' a = s.readColor p' a := rfl
@[simp] theorem State.advance_frontColor (s : State) (p : Word) (a : CellAddr) : (s.advance p).frontColor a = s.frontColor a := rfl
@[simp] theorem State.advance_romRead (s : State) (p : Word) (a : Nat) : (s.advance p).romRead a = s.romRead a := rfl
@[simp] theorem State.advance_ramRead (s : State) (p : Word) (a : Nat) : (s.advance p).ramRead a = s.ramRead a := rfl
@[simp] theorem State.advance_inSample (s : State) (p : Word) : (s.advance p).inSample = s.inSample := rfl
@[simp] theorem State.advance_memoryWf (s : State) (p : Word) : (s.advance p).memoryWf = s.memoryWf := rfl

/-! ### drive -/

@[simp] theorem State.drive_acc (ws : List (Option Word)) (s : State) : (s.drive ws).acc = s.acc := rfl
@[simp] theorem State.drive_rb (ws : List (Option Word)) (s : State) : (s.drive ws).rb = s.rb := rfl
@[simp] theorem State.drive_rc (ws : List (Option Word)) (s : State) : (s.drive ws).rc = s.rc := rfl
@[simp] theorem State.drive_jmp (ws : List (Option Word)) (s : State) : (s.drive ws).jmp = s.jmp := rfl
@[simp] theorem State.drive_pc (ws : List (Option Word)) (s : State) : (s.drive ws).pc = s.pc := rfl
@[simp] theorem State.drive_outw (ws : List (Option Word)) (s : State) : (s.drive ws).outw = s.outw := rfl
@[simp] theorem State.drive_outbuf (ws : List (Option Word)) (s : State) : (s.drive ws).outbuf = s.outbuf := rfl
@[simp] theorem State.drive_ram (ws : List (Option Word)) (s : State) : (s.drive ws).ram = s.ram := rfl
@[simp] theorem State.drive_rom (ws : List (Option Word)) (s : State) : (s.drive ws).rom = s.rom := rfl
@[simp] theorem State.drive_romLen (ws : List (Option Word)) (s : State) : (s.drive ws).romLen = s.romLen := rfl
@[simp] theorem State.drive_plane0 (ws : List (Option Word)) (s : State) : (s.drive ws).plane0 = s.plane0 := rfl
@[simp] theorem State.drive_plane1 (ws : List (Option Word)) (s : State) : (s.drive ws).plane1 = s.plane1 := rfl
@[simp] theorem State.drive_front (ws : List (Option Word)) (s : State) : (s.drive ws).front = s.front := rfl
@[simp] theorem State.drive_fault (ws : List (Option Word)) (s : State) : (s.drive ws).fault = s.fault := rfl
@[simp] theorem State.drive_faultKind (ws : List (Option Word)) (s : State) : (s.drive ws).faultKind = s.faultKind := rfl
@[simp] theorem State.drive_faultAddr (ws : List (Option Word)) (s : State) : (s.drive ws).faultAddr = s.faultAddr := rfl
@[simp] theorem State.drive_inputs (ws : List (Option Word)) (s : State) : (s.drive ws).inputs = s.inputs ++ ws.map hostWord := rfl
@[simp] theorem State.drive_samples (ws : List (Option Word)) (s : State) : (s.drive ws).samples = s.samples := rfl
@[simp] theorem State.drive_presents (ws : List (Option Word)) (s : State) : (s.drive ws).presents = s.presents := rfl
@[simp] theorem State.drive_slots (ws : List (Option Word)) (s : State) : (s.drive ws).slots = s.slots := rfl
@[simp] theorem State.drive_nextPc (ws : List (Option Word)) (s : State) (q : Word) : (s.drive ws).nextPc q = s.nextPc q := rfl
@[simp] theorem State.drive_plane (ws : List (Option Word)) (s : State) (p' : BitVec 1) : (s.drive ws).plane p' = s.plane p' := rfl
@[simp] theorem State.drive_back (ws : List (Option Word)) (s : State) : (s.drive ws).back = s.back := rfl
@[simp] theorem State.drive_readColor (ws : List (Option Word)) (s : State) (p' : BitVec 1) (a : CellAddr) : (s.drive ws).readColor p' a = s.readColor p' a := rfl
@[simp] theorem State.drive_frontColor (ws : List (Option Word)) (s : State) (a : CellAddr) : (s.drive ws).frontColor a = s.frontColor a := rfl
@[simp] theorem State.drive_romRead (ws : List (Option Word)) (s : State) (a : Nat) : (s.drive ws).romRead a = s.romRead a := rfl
@[simp] theorem State.drive_ramRead (ws : List (Option Word)) (s : State) (a : Nat) : (s.drive ws).ramRead a = s.ramRead a := rfl
@[simp] theorem State.drive_memoryWf (ws : List (Option Word)) (s : State) : (s.drive ws).memoryWf = s.memoryWf := rfl

/-! ### consumeSample -/

@[simp] theorem State.consumeSample_acc (s : State) : s.consumeSample.acc = s.acc := rfl
@[simp] theorem State.consumeSample_rb (s : State) : s.consumeSample.rb = s.rb := rfl
@[simp] theorem State.consumeSample_rc (s : State) : s.consumeSample.rc = s.rc := rfl
@[simp] theorem State.consumeSample_jmp (s : State) : s.consumeSample.jmp = s.jmp := rfl
@[simp] theorem State.consumeSample_pc (s : State) : s.consumeSample.pc = s.pc := rfl
@[simp] theorem State.consumeSample_outw (s : State) : s.consumeSample.outw = s.outw := rfl
@[simp] theorem State.consumeSample_outbuf (s : State) : s.consumeSample.outbuf = s.outbuf := rfl
@[simp] theorem State.consumeSample_ram (s : State) : s.consumeSample.ram = s.ram := rfl
@[simp] theorem State.consumeSample_rom (s : State) : s.consumeSample.rom = s.rom := rfl
@[simp] theorem State.consumeSample_romLen (s : State) : s.consumeSample.romLen = s.romLen := rfl
@[simp] theorem State.consumeSample_plane0 (s : State) : s.consumeSample.plane0 = s.plane0 := rfl
@[simp] theorem State.consumeSample_plane1 (s : State) : s.consumeSample.plane1 = s.plane1 := rfl
@[simp] theorem State.consumeSample_front (s : State) : s.consumeSample.front = s.front := rfl
@[simp] theorem State.consumeSample_fault (s : State) : s.consumeSample.fault = s.fault := rfl
@[simp] theorem State.consumeSample_faultKind (s : State) : s.consumeSample.faultKind = s.faultKind := rfl
@[simp] theorem State.consumeSample_faultAddr (s : State) : s.consumeSample.faultAddr = s.faultAddr := rfl
@[simp] theorem State.consumeSample_inputs (s : State) : s.consumeSample.inputs = s.inputs.tail := rfl
@[simp] theorem State.consumeSample_samples (s : State) : s.consumeSample.samples = s.samples + 1 := rfl
@[simp] theorem State.consumeSample_presents (s : State) : s.consumeSample.presents = s.presents := rfl
@[simp] theorem State.consumeSample_slots (s : State) : s.consumeSample.slots = s.slots := rfl
@[simp] theorem State.consumeSample_nextPc (s : State) (q : Word) : s.consumeSample.nextPc q = s.nextPc q := rfl
@[simp] theorem State.consumeSample_plane (s : State) (p' : BitVec 1) : s.consumeSample.plane p' = s.plane p' := rfl
@[simp] theorem State.consumeSample_back (s : State) : s.consumeSample.back = s.back := rfl
@[simp] theorem State.consumeSample_readColor (s : State) (p' : BitVec 1) (a : CellAddr) : s.consumeSample.readColor p' a = s.readColor p' a := rfl
@[simp] theorem State.consumeSample_frontColor (s : State) (a : CellAddr) : s.consumeSample.frontColor a = s.frontColor a := rfl
@[simp] theorem State.consumeSample_romRead (s : State) (a : Nat) : s.consumeSample.romRead a = s.romRead a := rfl
@[simp] theorem State.consumeSample_ramRead (s : State) (a : Nat) : s.consumeSample.ramRead a = s.ramRead a := rfl
@[simp] theorem State.consumeSample_memoryWf (s : State) : s.consumeSample.memoryWf = s.memoryWf := rfl

/-! ### present -/

@[simp] theorem State.present_acc (s : State) : s.present.acc = s.acc := rfl
@[simp] theorem State.present_rb (s : State) : s.present.rb = s.rb := rfl
@[simp] theorem State.present_rc (s : State) : s.present.rc = s.rc := rfl
@[simp] theorem State.present_jmp (s : State) : s.present.jmp = s.jmp := rfl
@[simp] theorem State.present_pc (s : State) : s.present.pc = s.pc := rfl
@[simp] theorem State.present_outw (s : State) : s.present.outw = s.outw := rfl
@[simp] theorem State.present_outbuf (s : State) : s.present.outbuf = s.outbuf := rfl
@[simp] theorem State.present_ram (s : State) : s.present.ram = s.ram := rfl
@[simp] theorem State.present_rom (s : State) : s.present.rom = s.rom := rfl
@[simp] theorem State.present_romLen (s : State) : s.present.romLen = s.romLen := rfl
@[simp] theorem State.present_plane0 (s : State) : s.present.plane0 = s.plane0 := rfl
@[simp] theorem State.present_plane1 (s : State) : s.present.plane1 = s.plane1 := rfl
@[simp] theorem State.present_front (s : State) : s.present.front = s.front := rfl
@[simp] theorem State.present_fault (s : State) : s.present.fault = s.fault := rfl
@[simp] theorem State.present_faultKind (s : State) : s.present.faultKind = s.faultKind := rfl
@[simp] theorem State.present_faultAddr (s : State) : s.present.faultAddr = s.faultAddr := rfl
@[simp] theorem State.present_inputs (s : State) : s.present.inputs = s.inputs := rfl
@[simp] theorem State.present_samples (s : State) : s.present.samples = s.samples := rfl
@[simp] theorem State.present_presents (s : State) : s.present.presents = s.presents + 1 := rfl
@[simp] theorem State.present_slots (s : State) : s.present.slots = s.slots := rfl
@[simp] theorem State.present_nextPc (s : State) (q : Word) : s.present.nextPc q = s.nextPc q := rfl
@[simp] theorem State.present_plane (s : State) (p' : BitVec 1) : s.present.plane p' = s.plane p' := rfl
@[simp] theorem State.present_back (s : State) : s.present.back = s.back := rfl
@[simp] theorem State.present_readColor (s : State) (p' : BitVec 1) (a : CellAddr) : s.present.readColor p' a = s.readColor p' a := rfl
@[simp] theorem State.present_frontColor (s : State) (a : CellAddr) : s.present.frontColor a = s.frontColor a := rfl
@[simp] theorem State.present_romRead (s : State) (a : Nat) : s.present.romRead a = s.romRead a := rfl
@[simp] theorem State.present_ramRead (s : State) (a : Nat) : s.present.ramRead a = s.ramRead a := rfl
@[simp] theorem State.present_inSample (s : State) : s.present.inSample = s.inSample := rfl
@[simp] theorem State.present_memoryWf (s : State) : s.present.memoryWf = s.memoryWf := rfl

/-! ### setPlane -/

@[simp] theorem State.setPlane_acc (s : State) (p : BitVec 1) (m : Plane) : (s.setPlane p m).acc = s.acc := by
  unfold State.setPlane; split <;> rfl
@[simp] theorem State.setPlane_rb (s : State) (p : BitVec 1) (m : Plane) : (s.setPlane p m).rb = s.rb := by
  unfold State.setPlane; split <;> rfl
@[simp] theorem State.setPlane_rc (s : State) (p : BitVec 1) (m : Plane) : (s.setPlane p m).rc = s.rc := by
  unfold State.setPlane; split <;> rfl
@[simp] theorem State.setPlane_jmp (s : State) (p : BitVec 1) (m : Plane) : (s.setPlane p m).jmp = s.jmp := by
  unfold State.setPlane; split <;> rfl
@[simp] theorem State.setPlane_pc (s : State) (p : BitVec 1) (m : Plane) : (s.setPlane p m).pc = s.pc := by
  unfold State.setPlane; split <;> rfl
@[simp] theorem State.setPlane_outw (s : State) (p : BitVec 1) (m : Plane) : (s.setPlane p m).outw = s.outw := by
  unfold State.setPlane; split <;> rfl
@[simp] theorem State.setPlane_outbuf (s : State) (p : BitVec 1) (m : Plane) : (s.setPlane p m).outbuf = s.outbuf := by
  unfold State.setPlane; split <;> rfl
@[simp] theorem State.setPlane_ram (s : State) (p : BitVec 1) (m : Plane) : (s.setPlane p m).ram = s.ram := by
  unfold State.setPlane; split <;> rfl
@[simp] theorem State.setPlane_rom (s : State) (p : BitVec 1) (m : Plane) : (s.setPlane p m).rom = s.rom := by
  unfold State.setPlane; split <;> rfl
@[simp] theorem State.setPlane_romLen (s : State) (p : BitVec 1) (m : Plane) : (s.setPlane p m).romLen = s.romLen := by
  unfold State.setPlane; split <;> rfl
@[simp] theorem State.setPlane_front (s : State) (p : BitVec 1) (m : Plane) : (s.setPlane p m).front = s.front := by
  unfold State.setPlane; split <;> rfl
@[simp] theorem State.setPlane_fault (s : State) (p : BitVec 1) (m : Plane) : (s.setPlane p m).fault = s.fault := by
  unfold State.setPlane; split <;> rfl
@[simp] theorem State.setPlane_faultKind (s : State) (p : BitVec 1) (m : Plane) : (s.setPlane p m).faultKind = s.faultKind := by
  unfold State.setPlane; split <;> rfl
@[simp] theorem State.setPlane_faultAddr (s : State) (p : BitVec 1) (m : Plane) : (s.setPlane p m).faultAddr = s.faultAddr := by
  unfold State.setPlane; split <;> rfl
@[simp] theorem State.setPlane_inputs (s : State) (p : BitVec 1) (m : Plane) : (s.setPlane p m).inputs = s.inputs := by
  unfold State.setPlane; split <;> rfl
@[simp] theorem State.setPlane_samples (s : State) (p : BitVec 1) (m : Plane) : (s.setPlane p m).samples = s.samples := by
  unfold State.setPlane; split <;> rfl
@[simp] theorem State.setPlane_presents (s : State) (p : BitVec 1) (m : Plane) : (s.setPlane p m).presents = s.presents := by
  unfold State.setPlane; split <;> rfl
@[simp] theorem State.setPlane_back (s : State) (p : BitVec 1) (m : Plane) : (s.setPlane p m).back = s.back := by
  simp [State.back]

/-- The two planes are the two values of a 1-bit index. -/
theorem plane_index_cases (p : BitVec 1) : p = 0#1 ∨ p = 1#1 := by revert p; decide

@[simp] theorem State.setPlane_plane (s : State) (p q : BitVec 1) (m : Plane) :
    (s.setPlane p m).plane q = if q = p then m else s.plane q := by
  rcases plane_index_cases p with rfl | rfl <;> rcases plane_index_cases q with rfl | rfl <;> rfl

end Sys2Proof.Machine
end

