-- ==== Sys2Proof/Laws/Ops.lean ====
section
/-! SUPPORT. What each shared operation can do: the planes, bounded accesses, writes, the post-step update, fetch. -/

namespace Sys2Proof.Machine

/-! ### The planes -/

@[simp] theorem State.setPlane_readColor (s : State) (p q : BitVec 1) (m : Plane) (a : CellAddr) :
    (s.setPlane p m).readColor q a = if q = p then Cells.read m a.toNat else s.readColor q a := by
  unfold State.readColor
  rw [State.setPlane_plane]
  split <;> rfl

/-- A colour write changes one cell of one plane (R68). -/
theorem State.setColor_readColor (s : State) (p q : BitVec 1) (a b : CellAddr) (c : Color) :
    (s.setColor p a c).readColor q b = if q = p ∧ b = a then c else s.readColor q b := by
  unfold State.setColor
  rw [State.setPlane_readColor, Cells.read_write]
  by_cases hq : q = p
  · subst hq
    by_cases hb : b = a
    · simp [hb]
    · have : b.toNat ≠ a.toNat := fun h => hb (BitVec.eq_of_toNat_eq h)
      simp [hb, this, State.readColor]
  · simp [hq]

/-- A plane write inside the plane is a colour write, and only outside it raises (R68). -/
theorem State.planeWrite_eq (s : State) (p : BitVec 1) (a : Nat) (c : Color) :
    s.planeWrite p a c =
      if a ≥ Config.cellsPerPlane then .error (.outOfRange .plane a) else .ok (s.setColor p (BitVec.ofNat 6 a) c) := by
  unfold State.planeWrite boundedWrite State.setColor
  split
  · rfl
  · rename_i h
    have ha : a < 2 ^ 6 := by simpa [Config.cellsPerPlane] using h
    have hm : a % 64 = a := Nat.mod_eq_of_lt ha
    simp [Except.map, hm]

/-! ### Bounded accesses -/

theorem State.romRead_of_lt {s : State} {a : Nat} (h : a < s.romLen) : s.romRead a = .ok (Cells.read s.rom a) := by
  simp [State.romRead, boundedRead, h]

theorem State.romRead_of_le {s : State} {a : Nat} (h : s.romLen ≤ a) : s.romRead a = .error (.outOfRange .rom a) := by
  simp [State.romRead, boundedRead, h]

theorem State.ramRead_of_lt {s : State} {a : Nat} (h : a < 256) : s.ramRead a = .ok (Cells.read s.ram a) := by
  simp [State.ramRead, boundedRead, Config.ramSize, h]

/-- A ROM read that raises is out of range, with the address it was given (R62). -/
theorem State.romRead_error {s : State} {a : Nat} {e : Fault} (h : s.romRead a = .error e) :
    s.romLen ≤ a ∧ e = .outOfRange .rom a := by
  by_cases ha : a < s.romLen
  · rw [State.romRead_of_lt ha] at h; cases h
  · rw [State.romRead_of_le (by omega)] at h; cases h; exact ⟨by omega, rfl⟩

theorem State.romWrite_ok {s t : State} {a : Nat} {v : Word} (h : s.romWrite a v = .ok t) :
    a < s.romLen ∧ t = s.setRom (Cells.write s.rom a v) := by
  unfold State.romWrite boundedWrite at h
  split at h
  · cases h
  · cases h; exact ⟨by omega, rfl⟩

theorem State.ramWrite_ok {s t : State} {a : Nat} {v : Word} (h : s.ramWrite a v = .ok t) :
    a < 256 ∧ t = s.setRam (Cells.write s.ram a v) := by
  unfold State.ramWrite boundedWrite at h
  split at h
  · cases h
  · rename_i hlt; cases h; exact ⟨by simpa [Config.ramSize] using hlt, rfl⟩

/-! ### The canonical form -/

theorem State.memoryWf_iff (s : State) :
    s.memoryWf = true ↔ Cells.wf s.romLen s.rom = true ∧ Cells.wf 256 s.ram = true ∧
      ∀ p, Cells.wf 64 (s.plane p) = true := by
  have hp : (∀ p, Cells.wf 64 (s.plane p) = true) ↔ Cells.wf 64 s.plane0 = true ∧ Cells.wf 64 s.plane1 = true := by
    constructor
    · intro h; exact ⟨h 0, h 1⟩
    · rintro ⟨h0, h1⟩ p
      rcases plane_index_cases p with rfl | rfl
      · exact h0
      · exact h1
  rw [hp]
  simp [State.memoryWf, Memory.wf, Config.ramSize, Config.cellsPerPlane, and_assoc]

/-- Every memory operation keeps the canonical form, the display's cell write here; the two bounded writes are the obligation
`WritesKeepCanonicalForm`. -/
theorem State.setColor_memoryWf {s : State} (p : BitVec 1) (a : CellAddr) (c : Color) (h : s.memoryWf = true) :
    (s.setColor p a c).memoryWf = true := by
  rw [State.memoryWf_iff] at h ⊢
  refine ⟨by simpa [State.setColor] using h.1, by simpa [State.setColor] using h.2.1, fun q => ?_⟩
  unfold State.setColor
  rw [State.setPlane_plane]
  split
  · exact Cells.wf_write c (h.2.2 p) a.isLt
  · exact h.2.2 q

theorem State.setRom_memoryWf {s : State} {a : Nat} (v : Word) (ha : a < s.romLen) (h : s.memoryWf = true) :
    (s.setRom (Cells.write s.rom a v)).memoryWf = true := by
  rw [State.memoryWf_iff] at h ⊢
  exact ⟨Cells.wf_write v h.1 ha, h.2⟩

theorem State.setRam_memoryWf {s : State} {a : Nat} (v : Word) (ha : a < 256) (h : s.memoryWf = true) :
    (s.setRam (Cells.write s.ram a v)).memoryWf = true := by
  rw [State.memoryWf_iff] at h ⊢
  exact ⟨h.1, Cells.wf_write v h.2.1 ha, h.2.2⟩

theorem State.reset_memoryWf : State.reset.memoryWf = true := by decide

/-! ### The post-step update -/

/-- As an integer, the post-step update is R118's, whenever the slot count fits the PC (N ≤ 256). -/
theorem State.nextPc_toNat {s : State} (p : Word) (h : s.slots ≤ 256) :
    (s.nextPc p).toNat = if p.toNat + 1 ≥ s.slots then 0 else p.toNat + 1 := by
  unfold State.nextPc
  split
  · rfl
  · simp only [BitVec.toNat_ofNat]; omega

/-- After a post-step update PC is a slot, or 0 (R121). -/
theorem State.nextPc_inRange {s : State} (p : Word) (h : s.slots ≤ 256) :
    s.nextPc p = 0#8 ∨ (s.nextPc p).toNat < s.slots := by
  have := State.nextPc_toNat p h
  by_cases hp : p.toNat + 1 ≥ s.slots
  · exact .inl (by simp [State.nextPc, hp])
  · right; rw [this, if_neg hp]; omega

/-! ### Fetch -/

theorem State.fetch_ok {s : State} {cw imm : Word} (h1 : s.romRead (2 * s.pc.toNat) = .ok cw)
    (h2 : s.romRead (2 * s.pc.toNat + 1) = .ok imm) : s.fetch = .ok (cw, imm) := by
  simp [State.fetch, h1, h2]

/-- A fetch that raises is out of range of the ROM, at one of the slot's two addresses (R112, R212). -/
theorem State.fetch_error {s : State} {e : Fault} (h : s.fetch = .error e) :
    ∃ a, s.romLen ≤ a ∧ e = .outOfRange .rom a := by
  unfold State.fetch at h
  split at h
  · rename_i e1 h1; cases h; exact ⟨_, State.romRead_error h1⟩
  · split at h
    · rename_i e2 h2; cases h; exact ⟨_, State.romRead_error h2⟩
    · cases h

end Sys2Proof.Machine
end

