-- ==== Sys2Proof/Laws/Display.lean ====
section
/-! SUPPORT. What the display update and the end of a tick can do. -/

namespace Sys2Proof.Machine

/-- A pixel write leaves everything but the planes alone. -/
theorem State.writePixel_frame (w : Word) (s : State) :
    s.writePixel w = { s with plane0 := (s.writePixel w).plane0, plane1 := (s.writePixel w).plane1 } := by
  unfold State.writePixel
  split
  · rcases plane_index_cases s.back with h | h <;> rw [h] <;> rfl
  · rfl

/-- A pixel write changes at most one cell, of the back plane (R172, R173). -/
theorem State.writePixel_readColor (w : Word) (s : State) (p : BitVec 1) (a : CellAddr) :
    (s.writePixel w).readColor p a =
      if w ≠ 0#8 ∧ p = s.back ∧ a = pixelAddr w then pixelColor w else s.readColor p a := by
  unfold State.writePixel
  by_cases hw : w = 0#8
  · simp [hw]
  · simp only [ne_eq, hw, not_false_eq_true, if_true, true_and, State.setColor_readColor]

/-- The swap changes FRONT alone (R175). -/
theorem State.maybeSwap_eq (c : Word) (s : State) :
    s.maybeSwap c = s.setFront (if c = 0xFF#8 then 1#1 - s.front else s.front) := by
  unfold State.maybeSwap; split <;> rfl

/-- Plane p after the pixel write of a display update: its one cell written where p is the back plane and the word no sentinel. -/
def State.pixelPlane (s : State) (p : BitVec 1) : Plane :=
  if s.outw ≠ 0#8 ∧ p = s.back then Cells.write (s.plane p) (pixelAddr s.outw).toNat (pixelColor s.outw) else s.plane p

/-- The pixel write, field by field. -/
theorem State.writePixel_eq (s : State) :
    s.writePixel s.outw = { s with plane0 := s.pixelPlane 0#1, plane1 := s.pixelPlane 1#1 } := by
  unfold State.writePixel
  by_cases hw : s.outw = 0#8
  · have hp : ∀ p, s.pixelPlane p = s.plane p := fun p => by simp [State.pixelPlane, hw]
    rw [if_neg (fun h => h hw), hp, hp]
    rfl
  · have hp : ∀ p, s.pixelPlane p =
        if p = s.back then Cells.write (s.plane p) (pixelAddr s.outw).toNat (pixelColor s.outw) else s.plane p :=
      fun p => by simp [State.pixelPlane, hw]
    rw [if_pos hw, hp, hp]
    rcases plane_index_cases s.back with hb | hb <;> rw [hb] <;> rfl

/-- The display update, field by field: everything it can do (R170, R172, R175, R181). -/
theorem State.displayUpdate_eq (s : State) :
    s.displayUpdate = { s with
      plane0 := s.pixelPlane 0#1
      plane1 := s.pixelPlane 1#1
      front := if s.outbuf = 0xFF#8 then 1#1 - s.front else s.front
      presents := s.presents + 1 } := by
  unfold State.displayUpdate
  rw [State.maybeSwap_eq, State.writePixel_eq]
  rfl

/-- The display update leaves everything alone but the planes, FRONT and the count of pulses. -/
theorem State.displayUpdate_frame (s : State) :
    s.displayUpdate = { s with
      plane0 := s.displayUpdate.plane0
      plane1 := s.displayUpdate.plane1
      front := if s.outbuf = 0xFF#8 then 1#1 - s.front else s.front
      presents := s.presents + 1 } := by
  unfold State.displayUpdate
  rw [State.maybeSwap_eq, State.writePixel_frame]
  rfl

/-- The colours after a display update (R172, R177). -/
theorem State.displayUpdate_readColor (s : State) (p : BitVec 1) (a : CellAddr) :
    s.displayUpdate.readColor p a =
      if s.outw ≠ 0#8 ∧ p = s.back ∧ a = pixelAddr s.outw then pixelColor s.outw else s.readColor p a := by
  unfold State.displayUpdate
  rw [State.maybeSwap_eq, ← State.writePixel_readColor]
  rfl

theorem State.displayUpdate_memoryWf {s : State} (h : s.memoryWf = true) : s.displayUpdate.memoryWf = true := by
  unfold State.displayUpdate
  rw [State.maybeSwap_eq]
  simp only [State.present_memoryWf, State.setFront_memoryWf]
  unfold State.writePixel
  split
  · exact State.setColor_memoryWf _ _ _ h
  · exact h

/-- The end of a tick that raised no fault. -/
theorem State.endTick_of_clean {s : State} (h : s.fault = 0#1) : s.endTick = s.consumeSample.displayUpdate := by
  simp [State.endTick, h]

/-- The end of a tick that raised a fault: no pixel write, swap, render or pulse (R213). -/
theorem State.endTick_of_fault {s : State} (h : s.fault = 1#1) : s.endTick = s.consumeSample := by
  simp [State.endTick, h]

/-- A 1-bit status is 0 or 1. -/
theorem State.fault_cases (s : State) : s.fault = 0#1 ∨ s.fault = 1#1 := plane_index_cases s.fault

/-- What the end of a tick leaves alone, fault or not. -/
theorem State.endTick_frame (s : State) :
    s.endTick = { s with
      plane0 := s.endTick.plane0
      plane1 := s.endTick.plane1
      front := s.endTick.front
      presents := s.endTick.presents
      inputs := s.inputs.tail
      samples := s.samples + 1 } := by
  rcases State.fault_cases s with h | h
  · rw [State.endTick_of_clean h, State.displayUpdate_frame]; rfl
  · rw [State.endTick_of_fault h]; rfl

/-- The end of a tick, field by field: everything it can do (R124, R213). -/
theorem State.endTick_eq (s : State) :
    s.endTick = { s with
      plane0 := if s.fault = 1#1 then s.plane0 else s.pixelPlane 0#1
      plane1 := if s.fault = 1#1 then s.plane1 else s.pixelPlane 1#1
      front := if s.fault = 0#1 ∧ s.outbuf = 0xFF#8 then 1#1 - s.front else s.front
      presents := if s.fault = 1#1 then s.presents else s.presents + 1
      inputs := s.inputs.tail
      samples := s.samples + 1 } := by
  rcases State.fault_cases s with h | h
  · have hn : ¬ s.fault = 1#1 := by rw [h]; decide
    have hs : (s.fault = 0#1 ∧ s.outbuf = 0xFF#8) = (s.outbuf = 0xFF#8) := by simp [h]
    rw [State.endTick_of_clean h, State.displayUpdate_eq, if_neg hn, if_neg hn, if_neg hn]
    simp only [hs]
    rfl
  · have hs : ¬ (s.fault = 0#1 ∧ s.outbuf = 0xFF#8) := fun c => absurd (h.symm.trans c.1) (by decide)
    rw [State.endTick_of_fault h, if_pos h, if_pos h, if_pos h, if_neg hs]
    rfl

/-! ### What the end of a tick leaves alone, field by field -/

@[simp] theorem State.endTick_acc (s : State) : s.endTick.acc = s.acc := by rw [State.endTick_eq]
@[simp] theorem State.endTick_rb (s : State) : s.endTick.rb = s.rb := by rw [State.endTick_eq]
@[simp] theorem State.endTick_rc (s : State) : s.endTick.rc = s.rc := by rw [State.endTick_eq]
@[simp] theorem State.endTick_jmp (s : State) : s.endTick.jmp = s.jmp := by rw [State.endTick_eq]
@[simp] theorem State.endTick_pc (s : State) : s.endTick.pc = s.pc := by rw [State.endTick_eq]
@[simp] theorem State.endTick_outw (s : State) : s.endTick.outw = s.outw := by rw [State.endTick_eq]
@[simp] theorem State.endTick_outbuf (s : State) : s.endTick.outbuf = s.outbuf := by rw [State.endTick_eq]
@[simp] theorem State.endTick_ram (s : State) : s.endTick.ram = s.ram := by rw [State.endTick_eq]
@[simp] theorem State.endTick_rom (s : State) : s.endTick.rom = s.rom := by rw [State.endTick_eq]
@[simp] theorem State.endTick_romLen (s : State) : s.endTick.romLen = s.romLen := by rw [State.endTick_eq]
@[simp] theorem State.endTick_fault (s : State) : s.endTick.fault = s.fault := by rw [State.endTick_eq]
@[simp] theorem State.endTick_faultKind (s : State) : s.endTick.faultKind = s.faultKind := by rw [State.endTick_eq]
@[simp] theorem State.endTick_faultAddr (s : State) : s.endTick.faultAddr = s.faultAddr := by rw [State.endTick_eq]
@[simp] theorem State.endTick_inputs (s : State) : s.endTick.inputs = s.inputs.tail := by rw [State.endTick_eq]
@[simp] theorem State.endTick_samples (s : State) : s.endTick.samples = s.samples + 1 := by rw [State.endTick_eq]

theorem State.endTick_memoryWf {s : State} (h : s.memoryWf = true) : s.endTick.memoryWf = true := by
  unfold State.endTick
  split
  · exact h
  · exact State.displayUpdate_memoryWf h

end Sys2Proof.Machine
end

