-- ==== Sys2Proof/Laws/Exec.lean ====
section
/-! SUPPORT. What one instruction and one tick can do, said once. -/

namespace Sys2Proof.Machine

/-- A checked load of ACC either completes or is taken as a fault. -/
theorem loadAcc_cases (r : Except Fault Word) (s : State) :
    (∃ v, r = .ok v ∧ loadAcc r s = .next ((s.setAcc v).advance s.pc)) ∨
      (∃ e, r = .error e ∧ loadAcc r s = .next (s.takeFault e)) := by
  cases r with
  | ok v => exact .inl ⟨v, rfl, rfl⟩
  | error e => exact .inr ⟨e, rfl, rfl⟩

/-- LDR never raises: its address is at most 15 (R65, R131). -/
theorem execLdr_eq (opd : Nibble) (s : State) :
    execLdr opd s = .next ((s.setAcc (Cells.read s.ram opd.toNat)).advance s.pc) := by
  have h : opd.toNat < 256 := lt_trans opd.isLt (by decide)
  unfold execLdr ramAddress
  rw [State.ramRead_of_lt h]
  rfl

/-- LDM inside the image (R133). -/
theorem execLdm_of_lt {opd : Nibble} {s : State} (h : 2 * opd.toNat < s.romLen) :
    execLdm opd s = .next ((s.setAcc (Cells.read s.rom (2 * opd.toNat))).advance s.pc) := by
  unfold execLdm controlWordAddress
  rw [State.romRead_of_lt h]
  rfl

/-- LDM past the image takes the fault (R134). -/
theorem execLdm_of_le {opd : Nibble} {s : State} (h : s.romLen ≤ 2 * opd.toNat) :
    execLdm opd s = .next (s.takeFault (.outOfRange .rom (2 * opd.toNat))) := by
  unfold execLdm controlWordAddress
  rw [State.romRead_of_le h]
  rfl

/-- Everything an instruction can do: either it is an LDM past the image, taken as a fault, or only the CPU's own registers and
latches may change. -/
theorem exec_cases (i : Instr) (s : State) :
    (∃ opd, i = .ldm opd ∧ s.romLen ≤ 2 * opd.toNat ∧
      exec i s = .next (s.takeFault (.outOfRange .rom (2 * opd.toNat)))) ∨
    (∃ t, exec i s = .next t ∧ t = { s with
      acc := t.acc, rb := t.rb, rc := t.rc, jmp := t.jmp, pc := t.pc, outw := t.outw, outbuf := t.outbuf }) := by
  cases i with
  | ldr opd => exact .inr ⟨_, execLdr_eq opd s, rfl⟩
  | ldm opd =>
    by_cases h : 2 * opd.toNat < s.romLen
    · exact .inr ⟨_, execLdm_of_lt h, rfl⟩
    · exact .inl ⟨opd, rfl, by omega, execLdm_of_le (by omega)⟩
  | _ => exact .inr ⟨_, rfl, rfl⟩

/-- Every instruction answers a next state, in every state (R110, R213). -/
theorem exec_next (i : Instr) (s : State) : ∃ t, exec i s = .next t := by
  rcases exec_cases i s with ⟨_, _, _, h⟩ | ⟨t, h, _⟩
  · exact ⟨_, h⟩
  · exact ⟨t, h⟩

/-- Where PC can be after an instruction that completes: 0, or what a post-step update gives (R118, R119). -/
theorem exec_pc {i : Instr} {s t : State} (h : exec i s = .next t) :
    t.pc = s.pc ∧ t.fault = 1#1 ∨ t.pc = 0#8 ∨ ∃ p, t.pc = s.nextPc p := by
  cases i with
  | ldm opd =>
    by_cases hl : 2 * opd.toNat < s.romLen
    · rw [show exec (.ldm opd) s = execLdm opd s from rfl, execLdm_of_lt hl] at h
      cases h; exact .inr (.inr ⟨_, rfl⟩)
    · rw [show exec (.ldm opd) s = execLdm opd s from rfl, execLdm_of_le (by omega)] at h
      cases h; exact .inl ⟨rfl, rfl⟩
  | ldr opd =>
    rw [show exec (.ldr opd) s = execLdr opd s from rfl, execLdr_eq] at h
    cases h; exact .inr (.inr ⟨_, rfl⟩)
  | stop => cases h; exact .inr (.inl rfl)
  | _ => cases h; exact .inr (.inr ⟨_, rfl⟩)

/-- Everything a tick that answers a next state can have done (R124): nothing, in the fault state; a fetch that raised; or an
instruction, then the end of the tick. -/
theorem step_cases {s t : State} (h : step s = .next t) :
    (s.fault = 1#1 ∧ t = s) ∨
    (s.fault = 0#1 ∧ s.romLen ≠ 0 ∧ ∃ e, s.fetch = .error e ∧ t = (s.takeFault e).endTick) ∨
    (s.fault = 0#1 ∧ s.romLen ≠ 0 ∧ ∃ cw imm u, s.fetch = .ok (cw, imm) ∧
      exec (decodeSlot cw imm) s = .next u ∧ t = u.endTick) := by
  unfold step State.tick at h
  split at h
  · rename_i hf; cases h; exact .inl ⟨hf, rfl⟩
  · rename_i hf
    have hf0 : s.fault = 0#1 := (State.fault_cases s).resolve_right hf
    split at h
    · cases h
    · rename_i hl
      refine .inr ?_
      unfold State.cpuStep at h
      split at h
      · rename_i cw imm hfe
        obtain ⟨u, hu⟩ := exec_next (decodeSlot cw imm) s
        rw [hu] at h; cases h
        exact .inr ⟨hf0, hl, cw, imm, u, hfe, hu, rfl⟩
      · rename_i e hfe
        cases h
        exact .inl ⟨hf0, hl, e, hfe, rfl⟩

/-- A tick with a fetched slot, forwards: the instruction, then the end of the tick. -/
theorem step_of_fetch {s u : State} {cw imm : Word} (hf : s.fault = 0#1) (hl : s.romLen ≠ 0)
    (hfe : s.fetch = .ok (cw, imm)) (hu : exec (decodeSlot cw imm) s = .next u) : step s = .next u.endTick := by
  simp [step, State.tick, hf, hl, State.cpuStep, hfe, hu, endTickOf]

/-- A tick in the fault state, forwards (R127). -/
theorem step_of_fault {s : State} (hf : s.fault = 1#1) : step s = .next s := by
  simp [step, State.tick, hf]

/-- A tick whose fetch raises, forwards. -/
theorem step_of_fetch_error {s : State} {e : Fault} (hf : s.fault = 0#1) (hl : s.romLen ≠ 0)
    (hfe : s.fetch = .error e) : step s = .next (s.takeFault e).endTick := by
  simp [step, State.tick, hf, hl, State.cpuStep, hfe, endTickOf]

/-! ### Runs -/

@[simp] theorem run_zero (s : State) : core.run 0 s = .next s := rfl

/-- A run goes on from the state a tick answers. -/
theorem run_succ_of_step {s t : State} (k : Nat) (h : step s = .next t) : core.run (k + 1) s = core.run k t := by
  have hc : core.step s = .next t := h
  simp only [Host.Core.run, hc]

end Sys2Proof.Machine
end

