-- ==== Sys2Proof/Laws/PerInstr.lean ====
section
/-! SUPPORT. Statements about every instruction as syntax, one lemma per constructor. -/

namespace Sys2Proof.Laws

/-- The family OpcodeNibble: the high nibble of the first word an instruction is written with is its opcode's code (30_encoding.md
R86, R90), and reading that nibble gives its opcode back. -/
def OpcodeNibble.Statement (i : Instr) : Prop :=
  ∃ cw imm, encode i = [cw, imm] ∧ opcOf cw = i.opcode.bits ∧ Opcode.ofBits (opcOf cw) = i.opcode

/-- The opcode field of a control word is what it was built from (R86, R95). -/
theorem opcOf_controlWord (opc opd : Nibble) : opcOf (controlWord opc opd) = opc := by
  revert opc opd; decide

/-- The operand field of a control word is what it was built from (R86, R95). -/
theorem opdOf_controlWord (opc opd : Nibble) : opdOf (controlWord opc opd) = opd := by
  revert opc opd; decide

/-- The opcode map undoes the code of an opcode (R90). -/
theorem ofBits_bits (o : Opcode) : Opcode.ofBits o.bits = o := by cases o <;> rfl

/-- What every lemma of the family comes to. -/
theorem OpcodeNibble.of_any (i : Instr) : OpcodeNibble.Statement i :=
  ⟨_, _, rfl, opcOf_controlWord _ _, by rw [opcOf_controlWord, ofBits_bits]⟩

theorem OpcodeNibble.nop : OpcodeNibble.Statement .nop := OpcodeNibble.of_any _
theorem OpcodeNibble.ldr (opd : Nibble) : OpcodeNibble.Statement (.ldr opd) := OpcodeNibble.of_any _
theorem OpcodeNibble.ldm (opd : Nibble) : OpcodeNibble.Statement (.ldm opd) := OpcodeNibble.of_any _
theorem OpcodeNibble.inc : OpcodeNibble.Statement .inc := OpcodeNibble.of_any _
theorem OpcodeNibble.dec : OpcodeNibble.Statement .dec := OpcodeNibble.of_any _
theorem OpcodeNibble.ldi (imm : Word) : OpcodeNibble.Statement (.ldi imm) := OpcodeNibble.of_any _
theorem OpcodeNibble.ldbi (imm : Word) : OpcodeNibble.Statement (.ldbi imm) := OpcodeNibble.of_any _
theorem OpcodeNibble.addr : OpcodeNibble.Statement .addr := OpcodeNibble.of_any _
theorem OpcodeNibble.subr : OpcodeNibble.Statement .subr := OpcodeNibble.of_any _
theorem OpcodeNibble.inp : OpcodeNibble.Statement .inp := OpcodeNibble.of_any _
theorem OpcodeNibble.out : OpcodeNibble.Statement .out := OpcodeNibble.of_any _
theorem OpcodeNibble.outb (imm : Word) : OpcodeNibble.Statement (.outb imm) := OpcodeNibble.of_any _
theorem OpcodeNibble.jmpi (opd : Nibble) : OpcodeNibble.Statement (.jmpi opd) := OpcodeNibble.of_any _
theorem OpcodeNibble.call (opd : Nibble) : OpcodeNibble.Statement (.call opd) := OpcodeNibble.of_any _
theorem OpcodeNibble.ret : OpcodeNibble.Statement .ret := OpcodeNibble.of_any _
theorem OpcodeNibble.stop : OpcodeNibble.Statement .stop := OpcodeNibble.of_any _

end Sys2Proof.Laws
end

