-- ==== Sys2Proof/Laws/Safety.lean ====
section
/-! SUPPORT. What a legal image length, a ready state and a booted image come to. -/

namespace Sys2Proof.Machine

/-- The lengths of images that load (R100 cases 4 to 6). -/
theorem romLengthOk_iff (n : Nat) : romLengthOk n = true ↔ n ≠ 0 ∧ n % 2 = 0 ∧ n ≤ 256 := by
  simp [romLengthOk, and_assoc]

/-- With an image loaded there are 1 to 128 slots, two words each (R9). -/
theorem State.ImageLoaded.slots_bounds {s : State} (h : s.ImageLoaded) :
    1 ≤ s.slots ∧ s.slots ≤ 128 ∧ s.romLen = 2 * s.slots := by
  rw [State.ImageLoaded, romLengthOk_iff] at h
  unfold State.slots
  omega

/-- The slot at PC of a ready state lies inside the image (R122). -/
theorem State.Ready.slot_in_image {s : State} (h : s.Ready) : 2 * s.pc.toNat + 1 < s.romLen := by
  have hb := h.1.slots_bounds
  have hp := h.2
  omega

/-- The words of a loaded image, read back by address. -/
theorem cellsOfWords_read (ws : List Word) (a b : Nat) :
    Cells.read (cellsOfWords a ws) b = if a ≤ b then ws.getD (b - a) 0#8 else 0#8 := by
  induction ws generalizing a with
  | nil => simp [cellsOfWords]
  | cons w ws ih =>
    have head : Cells.read (cellsOfWords a (w :: ws)) b =
        if a = b then w else Cells.read (cellsOfWords (a + 1) ws) b := by
      by_cases hw : w = 0#8
      · by_cases hab : a = b
        · have hz : Cells.read (cellsOfWords (a + 1) ws) b = 0#8 := by rw [ih, if_neg (by omega)]
          simp [cellsOfWords, hw, hz]
        · simp [cellsOfWords, hw, hab]
      · simp [cellsOfWords, hw, Cells.read]
    rw [head, ih]
    rcases Nat.lt_trichotomy a b with h | h | h
    · obtain ⟨k, rfl⟩ : ∃ k, b = a + 1 + k := ⟨b - (a + 1), by omega⟩
      have hk : a + 1 + k - a = k + 1 := by omega
      rw [if_neg (by omega), if_pos (by omega), if_pos (by omega), hk]
      simp
    · subst h; simp
    · rw [if_neg (by omega), if_neg (by omega), if_neg (by omega)]

/-- A loaded image is in canonical form. -/
theorem cellsOfWords_wfFrom (ws : List Word) (a n : Nat) (h : a + ws.length ≤ n) :
    Cells.wfFrom n a (cellsOfWords a ws) = true := by
  induction ws generalizing a with
  | nil => rfl
  | cons w ws ih =>
    have hl : a + 1 + ws.length ≤ n := by simp at h; omega
    unfold cellsOfWords
    split
    · exact Cells.wfFrom_mono (by omega) (ih (a + 1) hl)
    · rw [Cells.wfFrom_cons]
      exact ⟨le_refl a, by omega, ‹_›, ih (a + 1) hl⟩

end Sys2Proof.Machine
end

