-- ==== Sys2Proof/Tests/Slice0.lean ====
section
/-! SUPPORT. The model's own tests: the checks of well-formedness, decoding of words written out from 30_encoding.md, vectors
of 95_test_vectors.md (its V and E numbers are named), and for each statement with hypotheses a state that meets them. -/

namespace Sys2Proof.Tests
open Sys2Proof.Machine Sys2Proof.Claims

/-! ### Well-formedness -/

theorem test_wf_operand_not_used : AsmLine.wf { mnemonic := .nop, operand := .opd 3 } = false := by decide
theorem test_wf_operand_missing : AsmLine.wf { mnemonic := .ldi, operand := .none } = false := by decide
theorem test_wf_opd_too_large : AsmLine.wf { mnemonic := .jmpi, operand := .opd 16 } = false := by decide
theorem test_wf_imm_too_large : AsmLine.wf { mnemonic := .ldi, operand := .imm 256 } = false := by decide
theorem test_wf_accepts : AsmLine.wf { mnemonic := .outb, operand := .imm 255 } = true := by decide
theorem test_wf_rom_lengths :
    romLengthOk 0 = false ∧ romLengthOk 3 = false ∧ romLengthOk 258 = false ∧ romLengthOk 2 = true ∧
      romLengthOk 256 = true := by decide

/-! ### Decoding, bit by bit (R86, R90): the bits are the "Code" column and the fields -/

theorem test_decode_data :
    decodeSlot 0b00000000 0 = .nop ∧ decodeSlot 0b00011111 0 = .ldr 15 ∧ decodeSlot 0b00100101 0 = .ldm 5 ∧
    decodeSlot 0b00110000 0 = .inc ∧ decodeSlot 0b01000000 0 = .dec ∧ decodeSlot 0b01010000 0b10000001 = .ldi 129 ∧
    decodeSlot 0b01100000 0b00100000 = .ldbi 32 ∧ decodeSlot 0b01110000 0 = .addr ∧ decodeSlot 0b10000000 0 = .subr ∧
    decodeSlot 0b10010000 0 = .inp := by decide

theorem test_decode_output : decodeSlot 0b10100000 0 = .out ∧ decodeSlot 0b10110000 0b11111110 = .outb 254 := by decide

theorem test_decode_control :
    decodeSlot 0b11000011 0 = .jmpi 3 ∧ decodeSlot 0b11010100 0 = .call 4 ∧ decodeSlot 0b11100000 0 = .ret ∧
    decodeSlot 0b11110000 0 = .stop := by decide

theorem test_decode_refuses_short :
    decodeWords [] = .error .noControlWord ∧ decodeWords [0x50] = .error .noImmediate := ⟨rfl, rfl⟩

/-- The table's numbering: S = CW:IMM, bit 15 is CW bit 7 (R89). -/
theorem test_decodeTableWord :
    decodeTableWord 16 0x50FF = some (.ldi 0xFF) ∧ decodeTableWord 16 0xC300 = some (.jmpi 3) ∧
    decodeTableWord 16 0x1000 = some (.ldr 0) := by decide

theorem test_encode_ldi : encode (.ldi 0xFF) = [0x50, 0xFF] ∧ encode (.jmpi 3) = [0xC3, 0x00] := by decide

/-! ### One tick -/

/-- A machine of `n` slots at slot `pc`, which holds `CW IMM`; every other slot is NOP. -/
def at_ (n : Nat) (pc cw imm : Word) : State := { State.reset with romLen := 2 * n, pc := pc }.placeSlot cw imm

/-- What a tick answers, where it answers a next state. -/
def tickOf (s : State) : Option State :=
  match step s with
  | .next t => some t
  | .fault _ => none
  | .refused _ => none

/-- A view of the state after a tick. -/
def seen {α : Type} (s : State) (f : State → α) : Option α := (tickOf s).map f

theorem test_nop_wraps_V2 : seen (at_ 5 4 0x00 0x00) (·.pc) = some 0 := by decide
theorem test_nop_unused_fields_V11 :
    seen { at_ 5 2 0x0F 0xFF with acc := 0x42 } (fun t => (t.acc, t.pc)) = some (0x42, 3) := by decide
theorem test_ldr_zero_V12 : seen { at_ 5 2 0x17 0x00 with acc := 0x42 } (·.acc) = some 0 := by decide
theorem test_ldr_reads_opd : seen { at_ 5 2 0x1F 0x00 with ram := [(14, 1), (15, 0x5A)] } (·.acc) = some 0x5A := by decide
theorem test_ldm_control_word_V15 : seen (at_ 6 4 0x24 0x00) (fun t => (t.acc, t.pc)) = some (0x24, 5) := by decide
theorem test_ldm_faults_V17 :
    seen { at_ 6 1 0x26 0x00 with acc := 7, outw := 0x29, outbuf := 0xFF }
      (fun t => (t.fault, t.faultKind, t.faultAddr, t.acc, t.pc, t.front, t.plane1, t.presents)) =
      some (1, 1, 0x0C, 7, 1, 0, [], 0) := rfl
theorem test_inc_wraps_V20 : seen { at_ 5 2 0x30 0x00 with acc := 0xFF } (·.acc) = some 0 := by decide
theorem test_inc_unused_fields_V21 : seen { at_ 5 2 0x35 0xAA with acc := 0x7F } (·.acc) = some 0x80 := by decide
theorem test_dec_wraps_V22 : seen { at_ 5 2 0x40 0x00 with acc := 0x00 } (·.acc) = some 0xFF := by decide
theorem test_dec_V23 : seen { at_ 5 2 0x40 0x00 with acc := 0x01 } (·.acc) = some 0 := by decide
theorem test_ldi_V25 : seen (at_ 5 2 0x5A 0xFF) (·.acc) = some 0xFF := by decide
theorem test_ldi_V24 : seen { at_ 5 2 0x50 0x00 with acc := 0x13 } (·.acc) = some 0 := by decide
theorem test_ldbi_V26 :
    seen { at_ 5 2 0x60 0x20 with acc := 0x13 } (fun t => (t.rb, t.acc)) = some (0x20, 0x13) := by decide
theorem test_addr_V27 :
    seen { at_ 5 2 0x70 0x00 with acc := 0xFF, rb := 1, rc := 9 } (fun t => (t.rc, t.acc, t.rb)) = some (0, 0xFF, 1) := by decide
theorem test_addr_V29 : seen { at_ 5 2 0x70 0x00 with acc := 0xF0, rb := 0x20 } (·.rc) = some 0x10 := by decide
theorem test_subr_V31 : seen { at_ 5 2 0x80 0x00 with acc := 0x00, rb := 1 } (·.acc) = some 0xFF := by decide
theorem test_subr_V34 : seen { at_ 5 2 0x80 0x00 with acc := 0x00, rb := 0xFF } (·.acc) = some 1 := by decide
theorem test_inp_V35 :
    seen { at_ 5 2 0x90 0x00 with inputs := [0x10, 0x99] } (fun t => (t.acc, t.inputs)) = some (0x10, [0x99]) := by decide
theorem test_inp_V36 : seen { at_ 5 2 0x9C 0x33 with inputs := [0xFF] } (·.acc) = some 0xFF := by decide
/-- "With the host's default input, INP gives 0" (R141). -/
theorem test_inp_default : seen ({ at_ 5 2 0x90 0x00 with acc := 0x42 }.drive [none]) (·.acc) = some 0 := by decide
/-- With nothing known of the input, INP loads the free value of the tick. -/
theorem test_inp_free : seen { at_ 5 2 0x90 0x00 with samples := 3 } (·.acc) = some (Config.freeInput 3) := rfl
theorem test_out_V40 :
    seen { at_ 5 2 0xA0 0x00 with acc := 0xFF } (fun t => (t.outw, t.plane1, t.frontColor 63)) =
      some (0xFF, [(63, 3)], 0) := by decide
theorem test_out_sentinel_V41 :
    seen { at_ 5 2 0xA0 0x00 with outw := 0x29 } (fun t => (t.outw, t.plane0, t.plane1)) = some (0, [], []) := by decide
theorem test_outb_swaps_V46 :
    seen { at_ 5 2 0xB0 0xFF with plane1 := [(5, 2)] } (fun t => (t.outbuf, t.front, t.frontColor 5)) =
      some (0xFF, 1, 2) := by decide
theorem test_outb_V47 : seen (at_ 5 2 0xB0 0xFE) (fun t => (t.outbuf, t.front)) = some (0xFE, 0) := by decide
theorem test_jmpi_V60 : seen (at_ 8 0 0xC3 0x00) (·.pc) = some 4 := by decide
theorem test_jmpi_past_end_V61 : seen (at_ 3 1 0xCF 0x00) (·.pc) = some 0 := by decide
theorem test_call_V64 : seen (at_ 7 1 0xD4 0x00) (fun t => (t.jmp, t.pc)) = some (2, 5) := by decide
theorem test_call_no_wrap_V65 : seen (at_ 4 3 0xD0 0x00) (fun t => (t.jmp, t.pc)) = some (4, 1) := by decide
theorem test_ret_past_end_V66 : seen { at_ 4 1 0xE0 0x00 with jmp := 4 } (·.pc) = some 0 := by decide
theorem test_ret_V67 : seen { at_ 7 1 0xE0 0x00 with jmp := 2 } (fun t => (t.pc, t.jmp)) = some (3, 2) := by decide
theorem test_stop_V70 :
    seen { at_ 7 5 0xF0 0x00 with acc := 4, outw := 0xFF } (fun t => (t.pc, t.acc, t.outw, t.plane1)) =
      some (0, 4, 0xFF, [(63, 3)]) := by decide
theorem test_stop_keeps_registers_E4 :
    seen { at_ 7 5 0xF0 0x00 with acc := 4, rb := 0x20, rc := 0x10, jmp := 2 } (fun t => (t.pc, t.acc, t.rb, t.rc, t.jmp)) =
      some (0, 4, 0x20, 0x10, 2) := by decide

/-! ### The display -/

theorem test_pixel_black_V43 :
    seen { at_ 5 2 0xA0 0x00 with acc := 0x04, plane1 := [(1, 3)] } (·.plane1) = some [] := by decide
theorem test_latched_swap_V48 : seen { at_ 5 2 0x00 0x00 with front := 1, outbuf := 0xFF } (·.front) = some 0 := by decide
theorem test_write_then_swap_V49 :
    seen { at_ 5 2 0xB0 0xFF with outw := 0x29 } (fun t => (t.plane1, t.front, t.frontColor 10)) =
      some ([(10, 1)], 1, 1) := by decide
theorem test_latched_pixel_V50 :
    seen { at_ 5 2 0x00 0x00 with front := 1, outw := 0x29 } (fun t => (t.plane0, t.plane1)) = some ([(10, 1)], []) := by decide
theorem test_cell_zero_kept_V51 :
    seen { at_ 5 2 0xB0 0xFF with plane1 := [(0, 2)] } (fun t => (t.front, t.frontColor 0)) = some (1, 2) := by decide
theorem test_fault_state_V6 : tickOf { at_ 5 2 0x30 0x00 with fault := 1 } = some { at_ 5 2 0x30 0x00 with fault := 1 } := by decide
theorem test_pixel_word_E7 : pixelWord 1 2 1 = 0x29 ∧ pixelWord 7 7 3 = 0xFF ∧ pixelWord 0 1 0 = 0x04 := by decide
theorem test_palette : palette 1 = (255, 0, 255) ∧ palette 2 = (0, 255, 255) := by decide
theorem test_ports_after_reset : State.reset.ports.frontColors = List.replicate 64 0 ∧ State.reset.ports.presents = 0 := by decide

/-! ### Memories in canonical form -/

theorem test_write_zero_removes : Cells.write [(3, (5 : Word))] 3 0 = [] := by decide
theorem test_write_sorts : Cells.write [(3, (5 : Word))] 1 7 = [(1, 7), (3, 5)] := by decide
theorem test_wf_refuses_zero_entry : Cells.wf 256 [(3, (0 : Word))] = false := by decide
theorem test_wf_refuses_order : Cells.wf 256 [(3, (1 : Word)), (3, 2)] = false := by decide
theorem test_wf_refuses_range : Memory.wf 256 [(256, 1)] = false := by decide

/-! ### The host's questions -/

theorem test_withFetchWord_runs_first : seen (State.reset.withFetchWord 16 0x50FF) (fun t => (t.acc, t.pc)) = some (0xFF, 0) := by decide
theorem test_no_image_refused : step State.reset = .refused .noImage := rfl

/-! ### Loading (V80 to V87) -/

def zeros : List Char := ['0', '0', '0', '0', '0', '0', '0', '0']
def ldiLine : List Char := ['0', '1', '0', '1', '0', '0', '0', '0']

theorem test_load_wrong_length_V80 :
    loadImage (some (ldiLine.dropLast ++ '\n' :: zeros)) = .error .lineLength := rfl
theorem test_load_not_binary_V81 :
    loadImage (some (ldiLine.dropLast ++ 'a' :: '\n' :: zeros)) = .error .notBinary := rfl
theorem test_load_odd_V82 : loadLines [zeros, zeros, zeros] = .error .oddCount := rfl
theorem test_load_empty_V83 : loadImage (some []) = .error .empty := rfl
theorem test_load_crlf_V85 :
    loadImage (some (ldiLine ++ ['\r', '\n'] ++ List.replicate 8 '1' ++ ['\n'])) = .ok [0x50, 0xFF] := rfl
theorem test_load_trailing_space_V86 : loadImage (some (ldiLine ++ ' ' :: '\n' :: zeros)) = .error .lineLength := rfl
theorem test_load_missing : loadImage none = .error .missing := rfl
theorem test_boot_ldi : (State.boot [0x50, 0xFF]).rom = [(0, 0x50), (1, 0xFF)] ∧ (State.boot [0x50, 0xFF]).romLen = 2 := by decide

/-! ### Assembly (R106, R107) -/

theorem test_assemble_ldi : assemble { mnemonic := .ldi, operand := .imm 0xFF } = some (0x50, 0xFF) := by decide
theorem test_disassemble_unused : disassemble 0x35 0xAA = { mnemonic := .inc, operand := .none, comment := some (5, 0xAA) } := by decide

/-- `LDI #0xFF ; white` and `JMPI 3` (R105, R106; a comment changes nothing). -/
theorem test_assembleText :
    assembleText ['L', 'D', 'I', ' ', '#', '0', 'x', 'F', 'F', ' ', ';', ' ', 'w'] = some (0x50, 0xFF) ∧
    assembleText ['J', 'M', 'P', 'I', ' ', '3'] = some (0xC3, 0x00) := by decide
/-- `LDI 5`, `CALL 16`, `INC 1` and `LDR` are rejected (R105). -/
theorem test_assembleText_rejects :
    assembleText ['L', 'D', 'I', ' ', '5'] = none ∧ assembleText ['C', 'A', 'L', 'L', ' ', '1', '6'] = none ∧
    assembleText ['I', 'N', 'C', ' ', '1'] = none ∧ assembleText ['L', 'D', 'R'] = none := by decide
/-- The slot `35 AA` reads `INC ; opd=5 imm=AA` (R107). -/
theorem test_disassembleText :
    disassembleText 0x35 0xAA =
      ['I', 'N', 'C', ' ', ';', ' ', 'o', 'p', 'd', '=', '5', ' ', 'i', 'm', 'm', '=', 'A', 'A'] := by decide

/-! ### Witnesses: states and operands that meet the hypotheses of the statements -/

/-- Program P4 of spec/95: INP; LDBI #0x20; SUBR; ADDR; LDM 2; JMPI 15. -/
def p4 : State := State.boot [0x90, 0, 0x60, 0x20, 0x80, 0, 0x70, 0, 0x22, 0, 0xCF, 0]

theorem witness_ready : p4.Ready ∧ { p4 with pc := 5 }.Ready := by decide
theorem witness_EncodeInvertsDecode : unusedFieldsZero 0x50 0xFF = true ∧ unusedFieldsZero 0xC3 0x00 = true := by decide
theorem witness_UnusedFieldsIgnored :
    opcOf 0x35 = opcOf 0x30 ∧ ((Opcode.ofBits (opcOf 0x35)).uses = .opd → opdOf 0x35 = opdOf 0x30) ∧
      ((Opcode.ofBits (opcOf 0x35)).uses = .imm → (0xAA : Word) = 0x00) := by decide
theorem witness_AssemblyRoundTrip :
    AsmLine.wf { mnemonic := .call, operand := .opd 15 } = true ∧ AsmLine.wf { mnemonic := .call, operand := .opd 16 } = false := by decide
theorem witness_AssemblyTextRoundTrip :
    AsmLine.wf { mnemonic := .outb, operand := .imm 255, comment := some (15, 0xFF) } = true := by decide
theorem witness_ImageOfWordsLoads_BootLoadsImage :
    romLengthOk ([0x50, 0xFF] : List Word).length = true ∧ 1 < ([0x50, 0xFF] : List Word).length ∧
      ([0x50, 0xFF] : List Word).length ≤ 2 := by decide
theorem witness_RstRestoresConstruction : (255 : Nat) < 256 := by decide
theorem witness_WordWriteThenRead : 11 < p4.romLen ∧ (255 : Nat) < 256 ∧ p4.romLen ≤ 12 ∧ 256 ≤ (256 : Nat) := by decide
theorem witness_PlaneWriteSetsOneCell : 64 ≤ (64 : Nat) := by decide
theorem witness_WritesKeepCanonicalForm :
    p4.memoryWf = true ∧ (∃ a v t, State.romWrite a v p4 = .ok t) ∧ (∃ a v t, State.ramWrite a v p4 = .ok t) ∧
      ∃ p a c t, State.planeWrite p a c p4 = .ok t :=
  ⟨by decide, ⟨11, 1, _, rfl⟩, ⟨255, 1, _, rfl⟩, ⟨1, 63, 3, _, rfl⟩⟩
theorem witness_NopOnlyAdvances : { p4 with pc := 5 }.Ready := by decide
theorem witness_LdrLoadsRamWord : p4.Ready ∧ p4.RamZero := by decide
theorem witness_LdmLoadsControlWord : p4.Ready ∧ (5 : Nibble).toNat < p4.slots := by decide
theorem witness_LdmPastImageFaults :
    (at_ 6 1 0x26 0x00).fault = 0 ∧ SlotAt (at_ 6 1 0x26 0x00) (0x2#4 ++ 6#4) 0 ∧ (at_ 6 1 0x26 0x00).romLen ≤ 2 * (6 : Nibble).toNat :=
  ⟨rfl, ⟨rfl, rfl⟩, by decide⟩
theorem witness_IncAddsOne : { p4 with acc := 0xFF }.Ready := by decide
theorem witness_DecSubtractsOne : p4.Ready := by decide
theorem witness_LdiLoadsImmediate : p4.Ready := by decide
theorem witness_LdbiLoadsRb : p4.Ready ∧ ∃ t, exec (.ldbi 3) p4 = .next t ∧ t.rb ≠ p4.rb := ⟨by decide, _, rfl, by decide⟩
theorem witness_AddrAddsIntoRc : { p4 with acc := 0xFF, rb := 1 }.Ready := by decide
theorem witness_SubrSubtractsRb : { p4 with rb := 1 }.Ready := by decide
theorem witness_InpLoadsSample : p4.Ready ∧ p4.inputs = [] ∧ { p4 with inputs := [7, 8] }.inputs = 7 :: [8] := by decide
theorem witness_InpLoadsDrivenOrDefaultWord :
    p4.Ready ∧ p4.inputs = [] ∧ p4.fault = 0 ∧ ∃ t, step (p4.drive [none, some 7]) = .next t ∧ t.inSample = 7 :=
  ⟨by decide, rfl, rfl, _, rfl, rfl⟩
theorem witness_OutCopiesAcc :
    (at_ 6 1 0xA0 0x00).Ready ∧ (at_ 6 1 0xA0 0x00).fault = 0 ∧ SlotAt (at_ 6 1 0xA0 0x00) (0xA#4 ++ 0#4) 0 ∧
      (at_ 6 1 0xA0 0x00).acc = 0 ∧ { at_ 6 1 0xA0 0x00 with acc := 0xFF }.acc = 0xFF ∧
      ∃ t, exec .out { p4 with acc := 1 } = .next t ∧ t.outw ≠ p4.outw :=
  ⟨by decide, rfl, ⟨rfl, rfl⟩, rfl, rfl, _, rfl, by decide⟩
theorem witness_OutbWritesSwapWord :
    (at_ 6 1 0xB0 0xFF).Ready ∧ (at_ 6 1 0xB0 0xFF).fault = 0 ∧ SlotAt (at_ 6 1 0xB0 0xFF) (0xB#4 ++ 0#4) 0xFF ∧
      (∃ t, exec (.outb 1) p4 = .next t ∧ t.outbuf ≠ p4.outbuf) ∧
      ∃ t, step (at_ 6 1 0xB0 0xFF) = .next t ∧ t.fault = 0 ∧ t.outbuf = 0xFF :=
  ⟨by decide, rfl, ⟨rfl, rfl⟩, ⟨_, rfl, by decide⟩, _, rfl, rfl, rfl⟩
theorem witness_JmpiGoesPastTarget : p4.ImageLoaded := by decide
theorem witness_CallSavesReturnSlot : { p4 with pc := 5 }.Ready := by decide
theorem witness_RetGoesPastReturnSlot : { p4 with jmp := 6 }.ImageLoaded := by decide
theorem witness_ReturnSkipsSlotAfterCall :
    { p4 with pc := 4 }.Ready ∧ { p4 with jmp := 5 }.romLen = { p4 with pc := 4 }.romLen ∧
      ∃ u, exec (.call 2) { p4 with pc := 4 } = .next u ∧ { p4 with jmp := 5 }.jmp = u.jmp :=
  ⟨by decide, rfl, _, rfl, by decide⟩
theorem witness_RegisterWriters : ∃ t, exec .inc p4 = .next t ∧ t.acc ≠ p4.acc := ⟨_, rfl, by decide⟩
theorem witness_TickNeverWritesRom_TickNeverWritesRam : p4.RamZero ∧ ∃ t, step p4 = .next t := ⟨by decide, _, rfl⟩
theorem witness_StepRunsDecodedInstruction :
    p4.fault = 0 ∧ SlotAt p4 0x90 0 ∧ decodeWords [0x90, 0] = .ok (.inp, []) := ⟨rfl, ⟨rfl, rfl⟩, rfl⟩
theorem witness_FetchNeverFaults : { p4 with pc := 5 }.Ready := by decide
theorem witness_NeverHalts : p4.romLen ≠ 0 ∧ State.reset.romLen = 0 ∧ State.reset.fault = 0 := by decide
theorem witness_FaultStateIsSticky : { p4 with fault := 1 }.fault = 1 := rfl
theorem witness_FaultingTickWritesNothing :
    ∃ t u, exec (.ldm 6) p4 = .next t ∧ t.fault = 1 ∧ step (at_ 6 1 0x26 0x00) = .next u ∧ (at_ 6 1 0x26 0x00).fault = 0 ∧ u.fault = 1 :=
  ⟨_, _, rfl, rfl, rfl, rfl, rfl⟩
theorem witness_OnlyLdmFaults :
    (at_ 6 1 0x26 0x00).Ready ∧ (at_ 6 1 0x26 0x00).fault = 0 ∧ ∃ t, step (at_ 6 1 0x26 0x00) = .next t ∧ t.fault = 1 :=
  ⟨by decide, rfl, _, rfl, rfl⟩
theorem witness_InvariantKeptByTick : p4.Inv ∧ ∃ t, step p4 = .next t := ⟨by decide, _, rfl⟩
theorem witness_PcStaysInRange : { p4 with pc := 5 }.Ready ∧ ∃ t, step { p4 with pc := 5 } = .next t := ⟨by decide, _, rfl⟩

/-- Three INCs (example E3). -/
def threeIncs : State := State.boot [0x30, 0, 0x30, 0, 0x30, 0]

theorem threeIncs_straight (k : Nat) (cw imm : Word) (hk : k < threeIncs.slots) (h : threeIncs.romRead (2 * k) = .ok cw) :
    decodeSlot cw imm = .inc := by
  have hk3 : k < 3 := hk
  have hcw : cw = 0x30 := by
    match k, hk3 with
    | 0, _ => exact (Except.ok.inj h).symm
    | 1, _ => exact (Except.ok.inj h).symm
    | 2, _ => exact (Except.ok.inj h).symm
  subst hcw
  rfl

theorem witness_StraightCodeReturnsToSlotZero :
    threeIncs.ImageLoaded ∧ threeIncs.fault = 0 ∧ threeIncs.pc = 0 ∧
      ∀ k cw imm, k < threeIncs.slots → threeIncs.romRead (2 * k) = .ok cw →
        (decodeSlot cw imm).opcode ∉ [.jmpi, .call, .ret, .stop] ∧
        ∀ opd, decodeSlot cw imm = .ldm opd → opd.toNat < threeIncs.slots :=
  ⟨by decide, rfl, rfl, fun k cw imm hk h => by
    rw [threeIncs_straight k cw imm hk h]
    exact ⟨by decide, fun opd ho => by cases ho⟩⟩

theorem witness_CompletedTickUpdatesDisplay : ∃ t, step p4 = .next t ∧ p4.fault = 0 ∧ t.fault = 0 := ⟨_, rfl, rfl, rfl⟩
theorem witness_FrontPlaneNeverWritten : ∃ t, step p4 = .next t ∧ t.front = p4.front := ⟨_, rfl, rfl⟩
theorem witness_SwapShowsPixelJustWritten :
    ∃ t, step { at_ 6 1 0xB0 0xFF with outw := 0x29 } = .next t ∧ { at_ 6 1 0xB0 0xFF with outw := 0x29 }.fault = 0 ∧
      t.fault = 0 ∧ t.outbuf = 0xFF := ⟨_, rfl, rfl, rfl, rfl⟩
theorem witness_CellZeroNeverBlackAgain :
    (∃ t, step { p4 with plane1 := [(0, 2)] } = .next t) ∧ { p4 with plane1 := [(0, 2)] }.readColor 1 0 ≠ 0 ∧
      ((0 : CellAddr) ≠ 0 ∨ (1 : Color) ≠ 0) := ⟨⟨_, rfl⟩, by decide, by decide⟩
theorem witness_OnePulsePerCompletedTick : ∃ t, step p4 = .next t ∧ t.presents = 1 := ⟨_, rfl, rfl⟩
theorem witness_RcIsUnobservable_DisplayNeverAffectsCpu : ∃ t, step p4 = .next t := ⟨_, rfl⟩
theorem witness_OnlyInpReadsInput :
    { p4 with pc := 1 }.fault = 0 ∧ SlotAt { p4 with pc := 1 } 0x60 0x20 ∧ (decodeSlot 0x60 0x20).opcode ≠ .inp ∧
      ∃ t, step { p4 with pc := 1 } = .next t := ⟨rfl, ⟨rfl, rfl⟩, by decide, _, rfl⟩

end Sys2Proof.Tests
end

section
/-! Proofs of the family 30_encoding.md: the opcode map and its inverse, and the opcode of a decoded slot. -/

namespace Sys2Proof.Laws

/-- The "Code" column is read back from the opcode map, the inverse to `ofBits_bits` (R90). -/
@[simp] theorem bits_ofBits : ∀ c : Nibble, (Opcode.ofBits c).bits = c := by decide

theorem ofBits_injective : Function.Injective Opcode.ofBits :=
  Function.LeftInverse.injective bits_ofBits

theorem ofBits_surjective : Function.Surjective Opcode.ofBits :=
  Function.RightInverse.surjective ofBits_bits

/-- The decoder's choice among the sixteen rows follows the opcode map, whatever the operand fields hold (R91). -/
@[simp] theorem decodeSlot_opcode (cw imm : Word) : (decodeSlot cw imm).opcode = Opcode.ofBits (opcOf cw) := by
  unfold decodeSlot
  cases Opcode.ofBits (opcOf cw) <;> rfl

/-- Settles O5: the map and the "Code" column are inverse to each other, so the map is a bijection. -/
theorem opcodeAloneSelectsInstruction : Obligations.OpcodeAloneSelectsInstruction :=
  ⟨decodeSlot_opcode, fun _ _ h => ofBits_injective h, ofBits_surjective⟩

end Sys2Proof.Laws
end

section
/-! Proofs of the family 40_cycle.md: what an instruction and a tick that raise a fault have done. -/

namespace Sys2Proof.Laws
open Sys2Proof.Machine Sys2Proof.Claims

/-- An instruction that raises is an LDM past the image, and all it does is take that fault (R117, R134). -/
theorem exec_raises {i : Instr} {s t : State} (h : exec i s = .next t) (hs : s.fault = 0#1) (ht : t.fault = 1#1) :
    ∃ opd, i = .ldm opd ∧ s.romLen ≤ 2 * opd.toNat ∧ t = s.takeFault (.outOfRange .rom (2 * opd.toNat)) := by
  rcases exec_cases i s with ⟨opd, hi, hlen, he⟩ | ⟨u, he, hframe⟩
  · exact ⟨opd, hi, hlen, Host.Outcome.next.inj (h.symm.trans he)⟩
  · obtain rfl : t = u := Host.Outcome.next.inj (h.symm.trans he)
    have hkept : t.fault = s.fault := by rw [hframe]
    exact absurd (ht.symm.trans (hkept.trans hs)) (by decide)

/-- A tick that raises, in its fetch or in its instruction, takes the fault and samples the input; the display update does
not run (R124, R213). -/
theorem step_raises {s t : State} (h : step s = .next t) (hs : s.fault = 0#1) (ht : t.fault = 1#1) :
    ∃ e, t = (s.takeFault e).consumeSample := by
  rcases step_cases h with ⟨hf, -⟩ | ⟨-, -, e, -, rfl⟩ | ⟨-, -, cw, imm, u, -, hu, rfl⟩
  · exact absurd (hs.symm.trans hf) (by decide)
  · exact ⟨e, State.endTick_of_fault (State.takeFault_fault s e)⟩
  · rw [State.endTick_fault] at ht
    obtain ⟨opd, -, -, rfl⟩ := exec_raises hu hs ht
    exact ⟨_, State.endTick_of_fault ht⟩

/-- Settles O41: the state that took the fault is the old one beside the fault status, and the tick's end only samples. -/
theorem faultingTickWritesNothing : Obligations.FaultingTickWritesNothing := by
  constructor
  · intro i s t h hs ht
    obtain ⟨opd, -, -, rfl⟩ := exec_raises h hs ht
    rfl
  · intro s t h hs ht
    obtain ⟨e, rfl⟩ := step_raises h hs ht
    have hmem : MemoryUnchanged s (s.takeFault e).consumeSample := ⟨by simp, by simp, by simp⟩
    exact ⟨rfl, hmem, by simp⟩

end Sys2Proof.Laws
end

section
/-! Proofs of the family 41_data.md: what a slot of each opcode decodes to, the ALU's functions as integers, the frame of an
instruction that ends with the post-step update, and the data instructions. -/

namespace Sys2Proof.Laws
open Sys2Proof.Machine Sys2Proof.Claims

/-! ### Decoding by opcode -/

/-- The instruction an opcode makes of a slot's OPD and IMM: a row of the opcode map (R90). -/
def instrOf : Opcode → Nibble → Word → Instr
  | .nop => fun _ _ => .nop
  | .ldr => fun opd _ => .ldr opd
  | .ldm => fun opd _ => .ldm opd
  | .inc => fun _ _ => .inc
  | .dec => fun _ _ => .dec
  | .ldi => fun _ imm => .ldi imm
  | .ldbi => fun _ imm => .ldbi imm
  | .addr => fun _ _ => .addr
  | .subr => fun _ _ => .subr
  | .inp => fun _ _ => .inp
  | .out => fun _ _ => .out
  | .outb => fun _ imm => .outb imm
  | .jmpi => fun opd _ => .jmpi opd
  | .call => fun opd _ => .call opd
  | .ret => fun _ _ => .ret
  | .stop => fun _ _ => .stop

theorem decodeSlot_eq_instrOf (cw imm : Word) :
    decodeSlot cw imm = instrOf (Opcode.ofBits (opcOf cw)) (opdOf cw) imm := by
  unfold decodeSlot
  cases Opcode.ofBits (opcOf cw) <;> rfl

/-- Every slot with an opcode's code decodes by that opcode's row, whatever its unused fields hold (R90, R92). -/
theorem encoded_instrOf (o : Opcode) : Encoded o.bits (instrOf o) := fun opd imm => by
  change decodeSlot (controlWord o.bits opd) imm = _
  rw [decodeSlot_eq_instrOf, opcOf_controlWord, opdOf_controlWord, ofBits_bits]

/-! ### The ALU (R129) -/

@[simp] theorem add8_toNat (a b : Word) : (add8 a b).toNat = (a.toNat + b.toNat) % 256 := BitVec.toNat_add a b

@[simp] theorem inc8_toNat (a : Word) : (inc8 a).toNat = (a.toNat + 1) % 256 := add8_toNat a 1#8

/-- The remainder of `sub8` is the non-negative one (R12). -/
@[simp] theorem sub8_toNat (a b : Word) : ((sub8 a b).toNat : Int) = ((a.toNat : Int) - (b.toNat : Int)) % 256 := by
  have hb := b.isLt
  rw [sub8, BitVec.toNat_sub]
  omega

@[simp] theorem dec8_toNat (a : Word) : ((dec8 a).toNat : Int) = ((a.toNat : Int) - 1) % 256 := sub8_toNat a 1#8

@[simp] theorem dec8_inc8 (a : Word) : dec8 (inc8 a) = a := BitVec.add_sub_cancel a 1#8

@[simp] theorem inc8_dec8 (a : Word) : inc8 (dec8 a) = a := BitVec.sub_add_cancel a 1#8

/-! ### The frame of an instruction -/

/-- From a slot of the image, the post-step update goes to the next slot in order (R118, R121). -/
theorem nextInOrder_of_pc {s t : State} (hs : s.Ready) (ht : t.pc = s.nextPc s.pc) : NextInOrder s t := by
  obtain ⟨himage, hpc⟩ := hs
  obtain ⟨-, hmax, -⟩ := himage.slots_bounds
  rw [NextInOrder, ht, State.nextPc_toNat s.pc (by omega)]
  have hlast : s.pc.toNat + 1 ≥ s.slots ↔ s.pc.toNat + 1 = s.slots := by omega
  simp only [hlast]

/-- A state that differs in registers and latches alone reads every memory as before. -/
theorem memoryUnchanged_of_frame {s t : State}
    (ht : t = { s with acc := t.acc, rb := t.rb, rc := t.rc, jmp := t.jmp, pc := t.pc, outw := t.outw, outbuf := t.outbuf }) :
    MemoryUnchanged s t := by
  rw [ht]
  exact ⟨fun _ => rfl, fun _ => rfl, fun _ _ => rfl⟩

/-- A checked load of ACC writes ACC and PC, or the fault status (R117). -/
theorem loadAcc_frame {r : Except Fault Word} {s t : State} (h : loadAcc r s = .next t) :
    t = { s with acc := t.acc, pc := t.pc, fault := t.fault, faultKind := t.faultKind, faultAddr := t.faultAddr } := by
  rcases loadAcc_cases r s with ⟨v, -, hv⟩ | ⟨e, -, he⟩
  · cases h.symm.trans hv; rfl
  · cases h.symm.trans he; rfl

/-- What an instruction can do to RB: nothing, unless it is LDBI (R138). -/
theorem exec_rb {i : Instr} {s t : State} (h : exec i s = .next t) : t.rb = s.rb ∨ ∃ imm, i = .ldbi imm := by
  cases i with
  | ldbi imm => exact .inr ⟨imm, rfl⟩
  | ldr _ => rw [loadAcc_frame h]; exact .inl rfl
  | ldm _ => rw [loadAcc_frame h]; exact .inl rfl
  | _ => cases h; exact .inl rfl

/-! ### The data instructions -/

/-- Settles O14: NOP's step is the post-step update alone. -/
theorem nopOnlyAdvances : Obligations.NopOnlyAdvances :=
  ⟨encoded_instrOf .nop, fun _ hs => ⟨_, rfl, nextInOrder_of_pc hs rfl, rfl, memoryUnchanged_of_frame rfl⟩⟩

/-- Settles O15: a 4-bit address lies inside the RAM, so the checked read answers the word listed there. -/
theorem ldrLoadsRamWord : Obligations.LdrLoadsRamWord := by
  refine ⟨encoded_instrOf .ldr, fun opd s hs => ?_⟩
  have hread : s.ramRead opd.toNat = .ok (Cells.read s.ram opd.toNat) :=
    State.ramRead_of_lt (lt_trans opd.isLt (by decide))
  have hzero : s.RamZero → Cells.read s.ram opd.toNat = 0#8 := fun h => by rw [h, Cells.read_nil]
  exact ⟨_, execLdr_eq opd s, hread, hzero, nextInOrder_of_pc hs rfl, rfl, memoryUnchanged_of_frame rfl⟩

/-- Settles O18: what INC writes to ACC is `inc8`, read as an integer. -/
theorem incAddsOne : Obligations.IncAddsOne :=
  ⟨encoded_instrOf .inc, fun s hs =>
    ⟨_, rfl, inc8_toNat s.acc, nextInOrder_of_pc hs rfl, rfl, memoryUnchanged_of_frame rfl⟩⟩

/-- Settles O19: what DEC writes to ACC is `dec8`, read as an integer. -/
theorem decSubtractsOne : Obligations.DecSubtractsOne :=
  ⟨encoded_instrOf .dec, fun s hs =>
    ⟨_, rfl, dec8_toNat s.acc, nextInOrder_of_pc hs rfl, rfl, memoryUnchanged_of_frame rfl⟩⟩

/-- Settles O20: the immediate is used as the literal it is. -/
theorem ldiLoadsImmediate : Obligations.LdiLoadsImmediate :=
  ⟨encoded_instrOf .ldi, fun _ _ hs =>
    ⟨_, rfl, rfl, nextInOrder_of_pc hs rfl, rfl, memoryUnchanged_of_frame rfl⟩⟩

/-- Settles O21: LDBI writes the literal to RB, and `exec_rb` has no other arm that does. -/
theorem ldbiLoadsRb : Obligations.LdbiLoadsRb :=
  ⟨encoded_instrOf .ldbi, fun _ _ hs =>
    ⟨_, rfl, rfl, nextInOrder_of_pc hs rfl, rfl, memoryUnchanged_of_frame rfl⟩,
    fun _ _ _ h hrb => (exec_rb h).resolve_left hrb⟩

/-- Settles O22: what ADDR writes to RC is `add8`, read as an integer. -/
theorem addrAddsIntoRc : Obligations.AddrAddsIntoRc :=
  ⟨encoded_instrOf .addr, fun s hs =>
    ⟨_, rfl, add8_toNat s.acc s.rb, nextInOrder_of_pc hs rfl, rfl, memoryUnchanged_of_frame rfl⟩⟩

/-- Settles O23: what SUBR writes to ACC is `sub8`, read as an integer. -/
theorem subrSubtractsRb : Obligations.SubrSubtractsRb :=
  ⟨encoded_instrOf .subr, fun s hs =>
    ⟨_, rfl, sub8_toNat s.acc s.rb, nextInOrder_of_pc hs rfl, rfl, memoryUnchanged_of_frame rfl⟩⟩

/-- Settles O32: `inc8` and `dec8` undo each other, and each instruction writes its function's value to ACC. -/
theorem incThenDecRestoresAcc : Obligations.IncThenDecRestoresAcc :=
  ⟨fun a => ⟨dec8_inc8 a, inc8_dec8 a⟩, fun s => ⟨_, _, rfl, rfl, dec8_inc8 s.acc⟩⟩

end Sys2Proof.Laws
end

section
/-! Proofs of the family 42_output.md: the swap as its own inverse, and what a tick that raises no fault does to the display. -/

namespace Sys2Proof.Laws
open Sys2Proof.Machine

/-! ### The swap (R175, R176) -/

/-- The back plane is never the front one (R41). -/
theorem other_plane_ne : ∀ p : BitVec 1, 1#1 - p ≠ p := by decide

theorem maybeSwap_allOnes (s : State) : s.maybeSwap 0xFF#8 = s.setFront (1#1 - s.front) := by
  rw [State.maybeSwap_eq, if_pos rfl]

/-- Settles O50: a swap sets FRONT to the other plane, and the other of the other plane is the plane itself. -/
theorem swapIsInvolution : Obligations.SwapIsInvolution := by
  refine ⟨fun _ _ => rfl, fun s => ?_, fun s => ?_⟩
  · rw [maybeSwap_allOnes]
    exact other_plane_ne s.front
  · simp only [maybeSwap_allOnes, State.setFront_front, sub_sub_cancel]
    rfl

/-! ### A completed tick (R124, R170) -/

/-- A tick that raises no fault is an instruction that changed registers and latches alone, then the display update. -/
theorem step_completes {s t : State} (h : step s = .next t) (hs : s.fault = 0#1) (ht : t.fault = 0#1) :
    ∃ u : State, t = u.consumeSample.displayUpdate ∧ u = { s with
      acc := u.acc, rb := u.rb, rc := u.rc, jmp := u.jmp, pc := u.pc, outw := u.outw, outbuf := u.outbuf } := by
  rcases step_cases h with ⟨hf, -⟩ | ⟨-, -, e, -, rfl⟩ | ⟨-, -, cw, imm, u, -, hu, rfl⟩
  · exact absurd (hs.symm.trans hf) (by decide)
  · rw [State.endTick_fault, State.takeFault_fault] at ht
    exact absurd ht (by decide)
  · rw [State.endTick_fault] at ht
    refine ⟨u, State.endTick_of_clean ht, ?_⟩
    rcases exec_cases (decodeSlot cw imm) s with ⟨opd, -, -, he⟩ | ⟨v, hv, hframe⟩
    · cases hu.symm.trans he
      exact absurd (ht.symm.trans (State.takeFault_fault s _)) (by decide)
    · cases hu.symm.trans hv
      exact hframe

/-- A completed tick swaps exactly when it leaves OUTBUF all ones (R175). -/
theorem step_completed_front {s t : State} (h : step s = .next t) (hs : s.fault = 0#1) (ht : t.fault = 0#1) :
    t.front = if t.outbuf = 0xFF#8 then 1#1 - s.front else s.front := by
  obtain ⟨u, rfl, hu⟩ := step_completes h hs ht
  rw [State.displayUpdate_frame, hu]
  rfl

/-- A completed tick writes at most the cell its OUTW names, in the plane that was back (R172, R173). -/
theorem step_completed_readColor {s t : State} (h : step s = .next t) (hs : s.fault = 0#1) (ht : t.fault = 0#1)
    (p : BitVec 1) (a : CellAddr) :
    t.readColor p a =
      if t.outw ≠ 0#8 ∧ p = 1#1 - s.front ∧ a = pixelAddr t.outw then pixelColor t.outw else s.readColor p a := by
  obtain ⟨u, rfl, hu⟩ := step_completes h hs ht
  have houtw : u.consumeSample.displayUpdate.outw = u.outw := by rw [State.displayUpdate_frame]; rfl
  rw [State.displayUpdate_readColor, houtw, hu]
  rfl

/-- Settles O51: the pixel write goes to the plane that was back, and the swap makes that plane the one rendered. -/
theorem swapShowsPixelJustWritten : Obligations.SwapShowsPixelJustWritten := by
  intro s t h hs ht hswap
  have hfront : t.front = 1#1 - s.front := by rw [step_completed_front h hs ht, if_pos hswap]
  refine ⟨hfront, fun a => ?_⟩
  rw [State.frontColor, hfront, step_completed_readColor h hs ht]
  simp only [true_and]

end Sys2Proof.Laws
end

section
/-! Proofs of the family 43_control.md: STOP. -/

namespace Sys2Proof.Laws
open Sys2Proof.Machine Sys2Proof.Claims

/-- STOP is one write of PC, from any state: no post-step update follows, so none has to be `Ready` (R119, R197). -/
theorem exec_stop (s : State) : exec .stop s = .next (s.setPc 0#8) := rfl

/-- Settles O30: `setPc` is the only write STOP makes, so PC alone differs and every memory reads as before. -/
theorem stopRestartsAtSlotZero : Obligations.StopRestartsAtSlotZero :=
  ⟨encoded_instrOf .stop, fun s =>
    ⟨s.setPc 0#8, exec_stop s, State.setPc_pc s 0#8, rfl, memoryUnchanged_of_frame rfl⟩⟩

end Sys2Proof.Laws
end

section
/-! Proofs of the family 70_reset_and_hazards.md: no instruction and no tick writes the ROM. -/

namespace Sys2Proof.Laws
open Sys2Proof.Machine

/-- An instruction takes a fault or changes registers and latches, and neither is the ROM (R80). -/
theorem exec_rom {i : Instr} {s t : State} (h : exec i s = .next t) : t.rom = s.rom ∧ t.romLen = s.romLen := by
  rcases exec_cases i s with ⟨_, -, -, he⟩ | ⟨u, hu, hframe⟩
  · cases h.symm.trans he
    exact ⟨rfl, rfl⟩
  · cases h.symm.trans hu
    rw [hframe]
    exact ⟨rfl, rfl⟩

/-- A tick keeps the ROM's contents and length: the end of a tick adds no write of the ROM to what its fetch or its
instruction did (R80, R251). -/
theorem step_rom {s t : State} (h : step s = .next t) : t.rom = s.rom ∧ t.romLen = s.romLen := by
  rcases step_cases h with ⟨-, rfl⟩ | ⟨-, -, e, -, rfl⟩ | ⟨-, -, cw, imm, u, -, hu, rfl⟩
  · exact ⟨rfl, rfl⟩
  · simp
  · simpa using exec_rom hu

/-- Settles O35: a ROM read depends on the ROM's contents and length alone, and a tick keeps both. -/
theorem tickNeverWritesRom : Obligations.TickNeverWritesRom := by
  intro s t h
  obtain ⟨hrom, hlen⟩ := step_rom h
  exact ⟨hlen, fun a => by rw [State.romRead, State.romRead, hrom, hlen]⟩

end Sys2Proof.Laws
end

section
/-! Proofs about slots and lines of assembly: decoding and encoding undo each other, unused fields are ignored, and the
assembler and the disassembler agree. -/

namespace Sys2Proof.Laws
open Sys2Proof.Machine

/-! ### An instruction and its fields (R90, R95) -/

@[simp] theorem instrOf_opcode (o : Opcode) (opd : Nibble) (imm : Word) : (instrOf o opd imm).opcode = o := by
  cases o <;> rfl

@[simp] theorem instrOf_opdField (o : Opcode) (opd : Nibble) (imm : Word) :
    (instrOf o opd imm).opdField = if o.uses = .opd then opd else 0 := by
  cases o <;> rfl

@[simp] theorem instrOf_immField (o : Opcode) (opd : Nibble) (imm : Word) :
    (instrOf o opd imm).immField = if o.uses = .imm then imm else 0 := by
  cases o <;> rfl

/-- An instruction is its opcode with the two fields it is written with. -/
theorem instrOf_fields (i : Instr) : instrOf i.opcode i.opdField i.immField = i := by cases i <;> rfl

/-- The constructor of an instruction, from its opcode. -/
theorem eq_instrOf_of_opcode {i : Instr} {o : Opcode} (h : i.opcode = o) : i = instrOf o i.opdField i.immField :=
  h ▸ (instrOf_fields i).symm

theorem decodeSlot_controlWord (o : Opcode) (opd : Nibble) (imm : Word) :
    decodeSlot (controlWord o.bits opd) imm = instrOf o opd imm :=
  encoded_instrOf o opd imm

/-- A control word is its two nibbles, the opcode high (R86, R95). -/
@[simp] theorem controlWord_fields : ∀ cw : Word, controlWord (opcOf cw) (opdOf cw) = cw := by decide

/-- Settles O2: the control word gives back the opcode and OPD, and an instruction is its opcode and fields. -/
theorem decodeInvertsEncode : Obligations.DecodeInvertsEncode := by
  intro i rest
  calc decodeWords (encode i ++ rest)
      = .ok (decodeSlot (controlWord i.opcode.bits i.opdField) i.immField, rest) := rfl
    _ = .ok (i, rest) := by rw [decodeSlot_controlWord, instrOf_fields]

/-! ### Unused fields (R92, decision D13) -/

/-- The check of the unused fields, field by field. -/
theorem unusedFieldsZero_iff (cw imm : Word) : unusedFieldsZero cw imm = true ↔
    ((Opcode.ofBits (opcOf cw)).uses ≠ .opd → opdOf cw = 0) ∧ ((Opcode.ofBits (opcOf cw)).uses ≠ .imm → imm = 0) := by
  unfold unusedFieldsZero
  cases (Opcode.ofBits (opcOf cw)).uses <;> simp

/-- Settles O3: the fields that decoding drops are the unused ones, and those are 0 as the encoder writes them. -/
theorem encodeInvertsDecode : Obligations.EncodeInvertsDecode := by
  intro cw imm h
  obtain ⟨hopd, himm⟩ := (unusedFieldsZero_iff cw imm).1 h
  have hopd' : (decodeSlot cw imm).opdField = opdOf cw := by
    rw [decodeSlot_eq_instrOf, instrOf_opdField]
    split
    · rfl
    · exact (hopd ‹_›).symm
  have himm' : (decodeSlot cw imm).immField = imm := by
    rw [decodeSlot_eq_instrOf, instrOf_immField]
    split
    · rfl
    · exact (himm ‹_›).symm
  rw [encode, decodeSlot_opcode, bits_ofBits, hopd', himm', controlWord_fields]

/-- Settles O4: both slots decode by the same row, and a row looks at the fields it uses alone. -/
theorem unusedFieldsIgnored : Obligations.UnusedFieldsIgnored := by
  intro cw imm cw' imm' hopc hopd himm
  rw [decodeSlot_eq_instrOf, decodeSlot_eq_instrOf, ← hopc]
  rw [← instrOf_fields (instrOf _ (opdOf cw) imm), ← instrOf_fields (instrOf _ (opdOf cw') imm')]
  simp only [instrOf_opcode, instrOf_opdField, instrOf_immField]
  rw [ite_congr rfl hopd fun _ => rfl, ite_congr rfl himm fun _ => rfl]

/-- Settles O1: each slot is one row of the opcode map. -/
theorem sampleSlotsDecode : Obligations.SampleSlotsDecode := by
  unfold Obligations.SampleSlotsDecode
  decide

/-! ### The assembler and the disassembler (R105 to R107) -/

/-- The lines the assembler accepts: an operand of the kind the mnemonic uses, that fits its field (R105). -/
theorem asmLine_wf_iff (l : AsmLine) : l.wf = true ↔
    (l.mnemonic.uses = .nothing ∧ l.operand = .none) ∨
    (∃ n < 16, l.mnemonic.uses = .opd ∧ l.operand = .opd n) ∨
    (∃ v < 256, l.mnemonic.uses = .imm ∧ l.operand = .imm v) := by
  obtain ⟨o, a, c⟩ := l
  rw [AsmLine.wf, Bool.and_eq_true]
  cases hu : o.uses with
  | nothing => cases a <;> simp [AsmLine.operandUsed, AsmLine.operandFits, hu]
  | opd => cases a <;> simp [AsmLine.operandUsed, AsmLine.operandFits, hu]
  | imm => cases a <;> simp [AsmLine.operandUsed, AsmLine.operandFits, hu]

/-- A disassembled line is one the assembler accepts. -/
theorem disassemble_wf (cw imm : Word) : (disassemble cw imm).wf = true := by
  have hopd := (opdOf cw).isLt
  have himm := imm.isLt
  rw [asmLine_wf_iff]
  cases hu : (Opcode.ofBits (opcOf cw)).uses <;> simp [disassemble, printedOperand, hu, hopd, himm]

/-- Assembling a disassembled line writes the fields printed in it, which are all of them where the others are 0. -/
theorem assemble_disassemble {cw imm : Word} (h : unusedFieldsZero cw imm = true) :
    assemble (disassemble cw imm) = some (cw, imm) := by
  have hm : (disassemble cw imm).mnemonic.bits = opcOf cw := bits_ofBits _
  have hfields : AsmLine.opdField (disassemble cw imm) = opdOf cw ∧ AsmLine.immField (disassemble cw imm) = imm := by
    rw [unusedFieldsZero_iff] at h
    cases hu : (Opcode.ofBits (opcOf cw)).uses <;>
      simp_all [disassemble, printedOperand, AsmLine.opdField, AsmLine.immField]
  rw [assemble, if_pos (disassemble_wf cw imm), hm, hfields.1, hfields.2, controlWord_fields]

/-- A slot is rebuilt from its disassembly: from the comment, or by the assembler where there is none (R107). -/
theorem rebuildSlot_disassemble (cw imm : Word) : rebuildSlot (disassemble cw imm) = some (cw, imm) := by
  by_cases hz : unusedFieldsZero cw imm = true
  · have hc : (disassemble cw imm).comment = none := if_pos hz
    rw [rebuildSlot, hc]
    exact assemble_disassemble hz
  · have hc : (disassemble cw imm).comment = some (opdOf cw, imm) := if_neg hz
    have hm : (disassemble cw imm).mnemonic.bits = opcOf cw := bits_ofBits _
    simp only [rebuildSlot, hc, hm, controlWord_fields]

/-- The slot of an accepted line disassembles to the line, without its comment (R107). -/
theorem disassemble_of_wf {l : AsmLine} (h : l.wf = true) :
    disassemble (controlWord l.mnemonic.bits (AsmLine.opdField l)) (AsmLine.immField l) =
      { l with comment := none } := by
  have hzero : unusedFieldsZero (controlWord l.mnemonic.bits (AsmLine.opdField l)) (AsmLine.immField l) = true := by
    rw [unusedFieldsZero_iff, opcOf_controlWord, opdOf_controlWord, ofBits_bits]
    rcases (asmLine_wf_iff l).1 h with ⟨hu, ha⟩ | ⟨n, -, hu, ha⟩ | ⟨v, -, hu, ha⟩ <;>
      simp [AsmLine.opdField, AsmLine.immField, hu, ha]
  have hprinted : printedOperand l.mnemonic (AsmLine.opdField l) (AsmLine.immField l) = l.operand := by
    rcases (asmLine_wf_iff l).1 h with ⟨hu, ha⟩ | ⟨n, hn, hu, ha⟩ | ⟨v, hv, hu, ha⟩
    · simp [printedOperand, hu, ha]
    · simpa [printedOperand, AsmLine.opdField, hu, ha] using hn
    · simpa [printedOperand, AsmLine.immField, hu, ha] using hv
  rw [disassemble, if_pos hzero, opcOf_controlWord, opdOf_controlWord, ofBits_bits, hprinted]

/-- Settles O6: the two directions of the round trip; a line that is not `wf` has no slot. -/
theorem assemblyRoundTrip : Obligations.AssemblyRoundTrip :=
  ⟨rebuildSlot_disassemble,
    fun _ h => ⟨_, _, if_pos h, disassemble_of_wf h⟩,
    fun _ h => if_neg (by simp [h])⟩

end Sys2Proof.Laws
end

section
/-! Proofs about the text of an assembly line: a printed line reads back (R16, R105 to R107). -/

namespace Sys2Proof.Laws
open Sys2Proof.Machine

/-- A line of one part is a mnemonic alone. -/
theorem parseLine_of_mnemonic {text : List Char} {o : Opcode}
    (h : partsFrom [] (codeText text) = [mnemonicText o]) :
    parseLine text = some { mnemonic := o, operand := .none, comment := readComment (commentText text) } := by
  simp only [parseLine, h, readMnemonic_mnemonicText, Option.map_some]

/-- A line of two parts is a mnemonic and an operand. -/
theorem parseLine_of_operand {text p : List Char} {o : Opcode} {a : AsmOperand}
    (h : partsFrom [] (codeText text) = [mnemonicText o, p]) (ha : readOperand p = some a) :
    parseLine text = some { mnemonic := o, operand := a, comment := readComment (commentText text) } := by
  simp only [parseLine, h, readMnemonic_mnemonicText, ha]

/-- A comment is cut off from the code before it, and read back. -/
theorem codeText_append_comment {code : List Char} (h : ';' ∉ code) (c : Option (Nibble × Word)) :
    partsFrom [] (codeText (code ++ commentTextOf c)) = partsFrom [] code ∧
      readComment (commentText (code ++ commentTextOf c)) = c := by
  rw [codeText_append _ _ h, commentText_append _ _ h, codeText_commentTextOf, readComment_commentTextOf]
  refine ⟨?_, rfl⟩
  split
  · rw [List.append_nil]
  · exact partsFrom_append_blank code []

/-- A part without blanks stands alone at the end of a text. -/
theorem partsFrom_single {p : List Char} (h : ' ' ∉ p) (hn : p ≠ []) : partsFrom [] p = [p] := by
  rw [partsFrom_word p [] h]
  exact if_neg hn

/-- A printed bare number reads as a short operand. -/
theorem readOperand_opd {n : Nat} (h : n < 256) : readOperand (decimalText n) = some (.opd n) := by
  obtain ⟨hread, hprefix, -, -⟩ := decimalText_reads n h
  rw [readOperand, hprefix, hread]
  rfl

/-- A printed number after `#` reads as an immediate. -/
theorem readOperand_imm {v : Nat} (h : v < 256) : readOperand ('#' :: decimalText v) = some (.imm v) := by
  obtain ⟨hread, -, -, -⟩ := decimalText_reads v h
  change (readNumber (decimalText v)).map AsmOperand.imm = _
  rw [hread]
  rfl

/-- A line with an operand, from the text the operand is printed as. -/
theorem parseLine_printed_operand {o : Opcode} {a : AsmOperand} {p : List Char} (c : Option (Nibble × Word))
    (htext : operandText a = ' ' :: p) (hblank : ' ' ∉ p) (hsemi : ';' ∉ p) (ha : readOperand p = some a) :
    parseLine (printLine ⟨o, a, c⟩) = some ⟨o, a, c⟩ := by
  obtain ⟨hmsemi, hmblank, hmne⟩ := mnemonicText_no_separator o
  have hpne : p ≠ [] := by rintro rfl; cases ha
  have hcode : ';' ∉ mnemonicText o ++ ' ' :: p := by simp [hmsemi, hsemi]
  obtain ⟨hparts, hcomment⟩ := codeText_append_comment hcode c
  rw [partsFrom_append _ _ hmblank hmne, partsFrom_single hblank hpne] at hparts
  rw [printLine, htext, parseLine_of_operand hparts ha, hcomment]

/-- A line the assembler accepts is read back from its text. -/
theorem parseLine_printLine {l : AsmLine} (h : l.wf = true) : parseLine (printLine l) = some l := by
  obtain ⟨o, a, c⟩ := l
  rcases (asmLine_wf_iff _).1 h with ⟨-, rfl⟩ | ⟨n, hn, -, rfl⟩ | ⟨v, hv, -, rfl⟩
  · obtain ⟨hmsemi, hmblank, hmne⟩ := mnemonicText_no_separator o
    obtain ⟨hparts, hcomment⟩ := codeText_append_comment hmsemi c
    rw [partsFrom_single hmblank hmne] at hparts
    rw [printLine, operandText, List.append_nil, parseLine_of_mnemonic hparts, hcomment]
  · obtain ⟨-, -, hblank, hsemi⟩ := decimalText_reads n (by omega)
    exact parseLine_printed_operand c rfl hblank hsemi (readOperand_opd (by omega))
  · obtain ⟨-, -, hblank, hsemi⟩ := decimalText_reads v hv
    exact parseLine_printed_operand c rfl (by simp [hblank]) (by simp [hsemi]) (readOperand_imm hv)

/-- Settles O58: a disassembled line is `wf`, so its text reads back as it, and the slot is rebuilt from that. -/
theorem assemblyTextRoundTrip : Obligations.AssemblyTextRoundTrip := by
  refine ⟨fun l h => parseLine_printLine h, fun cw imm => ?_⟩
  rw [rebuildText, disassembleText, parseLine_printLine (disassemble_wf cw imm), Option.bind_some,
    rebuildSlot_disassemble]

end Sys2Proof.Laws
end

section
/-! Proofs about the loader, the boot and reset. -/

namespace Sys2Proof.Laws
open Sys2Proof.Machine

/-! ### The lines of an image (R100) -/

/-- A line that loads: 8 characters, each a binary digit (R100 cases 2 and 3). -/
def BinaryLine (l : List Char) : Prop := l.length = 8 ∧ ∀ c ∈ l, c = '0' ∨ c = '1'

theorem loadLine_ok_iff (l : List Char) (w : Word) :
    loadLine l = .ok w ↔ BinaryLine l ∧ w = BitVec.ofNat 8 (binaryValue l) := by
  have hall : l.all (fun c => c == '0' || c == '1') = true ↔ ∀ c ∈ l, c = '0' ∨ c = '1' := by simp
  unfold loadLine
  split_ifs with hlen hbin
  · exact ⟨nofun, fun ⟨⟨h8, _⟩, _⟩ => absurd h8 hlen⟩
  · rw [Except.ok.injEq]
    exact ⟨fun h => ⟨⟨not_not.1 hlen, hall.1 hbin⟩, h.symm⟩, fun h => h.2.symm⟩
  · exact ⟨nofun, fun ⟨⟨_, h01⟩, _⟩ => absurd (hall.2 h01) hbin⟩

/-- Lines give words exactly if each of them loads, and then word i is the value of line i. -/
theorem loadWords_ok_iff (ls : List (List Char)) (ws : List Word) :
    loadWords ls = .ok ws ↔
      (∀ l ∈ ls, BinaryLine l) ∧ ws = ls.map (fun l => BitVec.ofNat 8 (binaryValue l)) := by
  induction ls generalizing ws with
  | nil => simp [loadWords, eq_comm]
  | cons l ls ih =>
    rw [loadWords, List.forall_mem_cons, List.map_cons]
    cases hl : loadLine l with
    | error e =>
      have : ¬ BinaryLine l := fun hb => by cases hl.symm.trans ((loadLine_ok_iff l _).2 ⟨hb, rfl⟩)
      simp [this]
    | ok w =>
      obtain ⟨hb, rfl⟩ := (loadLine_ok_iff l w).1 hl
      cases hls : loadWords ls with
      | error e =>
        have : ¬ ∀ l ∈ ls, BinaryLine l := fun hbs => by cases hls.symm.trans ((ih _).2 ⟨hbs, rfl⟩)
        simp [this]
      | ok vs =>
        obtain ⟨hbs, rfl⟩ := (ih vs).1 hls
        rw [Except.ok.injEq]
        exact ⟨fun h => ⟨⟨hb, hbs⟩, h.symm⟩, fun h => h.2.symm⟩

/-- An image's lines load exactly if their words do and the number of words is legal (R100 cases 4 to 6). -/
theorem loadLines_ok_iff (ls : List (List Char)) (ws : List Word) :
    loadLines ls = .ok ws ↔ loadWords ls = .ok ws ∧ romLengthOk ws.length = true := by
  rw [loadLines]
  cases hls : loadWords ls with
  | error e => simp
  | ok vs =>
    simp only [Except.ok.injEq, romLengthOk_iff, Config.romCapacity]
    split_ifs with hempty hodd hlong
    · exact ⟨nofun, by rintro ⟨rfl, hne, -⟩; exact absurd hempty hne⟩
    · exact ⟨nofun, by rintro ⟨rfl, -, heven, -⟩; exact absurd heven hodd⟩
    · exact ⟨nofun, by rintro ⟨rfl, -, -, hmax⟩; omega⟩
    · rw [Except.ok.injEq]
      exact ⟨by rintro rfl; exact ⟨rfl, hempty, not_not.1 hodd, not_lt.1 hlong⟩, fun h => h.1⟩

/-- Settles O7: the words come from the lines, as many as there are lines, and the count is checked last. -/
theorem loadAcceptsExactlyLegalLines : Obligations.LoadAcceptsExactlyLegalLines := by
  intro ls ws
  rw [loadLines_ok_iff, loadWords_ok_iff, romLengthOk_iff]
  constructor
  · rintro ⟨⟨hbin, rfl⟩, hlen⟩
    rw [List.length_map] at hlen
    exact ⟨hbin, hlen.1, hlen.2.1, hlen.2.2, rfl⟩
  · rintro ⟨hbin, hne, heven, hmax, rfl⟩
    rw [List.length_map]
    exact ⟨⟨hbin, rfl⟩, hne, heven, hmax⟩

/-! ### The image written from words (R101) -/

theorem linesFrom_lf {cur : List Char} (cs : List Char) (hcr : '\r' ∉ cur) :
    linesFrom cur ('\n' :: cs) = cur.reverse :: linesFrom [] cs := by
  rcases cur with _ | ⟨c, cur⟩
  · rfl
  · have hc : c ≠ '\r' := fun h => hcr (h ▸ List.mem_cons_self)
    simp [linesFrom, hc]

theorem linesFrom_char {c : Char} (cur cs : List Char) (hc : c ≠ '\n') :
    linesFrom cur (c :: cs) = linesFrom (c :: cur) cs := by
  simp [linesFrom, hc]

/-- A line ended by LF, with no line end of its own, is the first line of its text. -/
theorem linesFrom_line {l cur : List Char} (rest : List Char) (hlf : '\n' ∉ l) (hcr : '\r' ∉ cur ++ l) :
    linesFrom cur (l ++ '\n' :: rest) = (cur.reverse ++ l) :: linesFrom [] rest := by
  induction l generalizing cur with
  | nil =>
    rw [List.append_nil] at hcr ⊢
    exact linesFrom_lf rest hcr
  | cons c l ih =>
    obtain ⟨hc, hlf⟩ := not_or.1 (mt List.mem_cons.2 hlf)
    have hcr' : '\r' ∉ (c :: cur) ++ l := by simpa [or_left_comm] using hcr
    rw [List.cons_append, linesFrom_char _ _ (Ne.symm hc), ih hlf hcr']
    simp

theorem wordLine_binary (w : Word) : BinaryLine (wordLine w) := by
  refine ⟨rfl, fun c hc => ?_⟩
  obtain ⟨i, -, rfl⟩ := List.mem_map.1 hc
  split
  · exact .inr rfl
  · exact .inl rfl

/-- The most significant bit is written first and read first (decision D1). -/
theorem binaryValue_wordLine : ∀ w : Word, BitVec.ofNat 8 (binaryValue (wordLine w)) = w := by decide

/-- The lines of an image written from words are the lines of its words. -/
theorem imageLines_imageOfWords (ws : List Word) : imageLines (imageOfWords ws) = ws.map wordLine := by
  have hchar {c : Char} (w : Word) (h0 : c ≠ '0') (h1 : c ≠ '1') : c ∉ wordLine w :=
    fun h => ((wordLine_binary w).2 c h).elim h0 h1
  induction ws with
  | nil => rfl
  | cons w ws ih =>
    have hlf := hchar w (c := '\n') (by decide) (by decide)
    have hcr := hchar w (c := '\r') (by decide) (by decide)
    rw [List.map_cons, ← ih]
    simpa [imageOfWords, imageLines] using linesFrom_line (cur := []) (imageOfWords ws) hlf hcr

/-- Settles O8: the text's lines are the words' lines, each of which loads as its word. -/
theorem imageOfWordsLoads : Obligations.ImageOfWordsLoads := by
  intro ws h
  have hwords : loadWords (ws.map wordLine) = .ok ws := by
    rw [loadWords_ok_iff, List.forall_mem_map, List.map_map]
    refine ⟨fun w _ => wordLine_binary w, ?_⟩
    exact (List.map_id'' binaryValue_wordLine ws).symm
  rw [loadImage, imageLines_imageOfWords]
  exact (loadLines_ok_iff _ _).2 ⟨hwords, h⟩

/-! ### Boot and reset -/

/-- Settles O9: the words are read back by address, and all else of a booted state is `State.reset`'s. -/
theorem bootLoadsImage : Obligations.BootLoadsImage := by
  intro ws h
  have hread (a : Nat) (ha : a < ws.length) : (State.boot ws).romRead a = .ok ws[a] := by
    have hcell : Cells.read (State.boot ws).rom a = ws[a] := by
      simp [State.boot, cellsOfWords_read, ha]
    rw [State.romRead_of_lt ha, hcell]
  have hwf : (State.boot ws).memoryWf = true :=
    (State.memoryWf_iff _).2 ⟨cellsOfWords_wfFrom ws 0 _ (by simp [State.boot]), rfl, fun p => by
      rcases plane_index_cases p with rfl | rfl <;> rfl⟩
  have hinv : (State.boot ws).Inv := ⟨.inr h, .inl rfl, Nat.zero_le _, rfl, hwf, .inl ⟨rfl, rfl, rfl⟩⟩
  exact ⟨rfl, rfl, hread, fun _ ha => State.romRead_of_le ha, rfl, rfl, hinv⟩

/-- Settles O45: the construction state has no image, and every memory of it is empty. -/
theorem invariantAtReset : Obligations.InvariantAtReset :=
  ⟨.inl rfl, .inl rfl, Nat.zero_le _, rfl, State.reset_memoryWf, .inl ⟨rfl, rfl, rfl⟩⟩

theorem rst_readColor (s : State) (p : BitVec 1) (a : CellAddr) : s.rst.readColor p a = 0 := by
  rcases plane_index_cases p with rfl | rfl <;> rfl

/-- Settles O10: reset empties RAM and planes, and a memory without cells reads 0 (R64). -/
theorem rstRestoresConstruction : Obligations.RstRestoresConstruction := by
  intro s
  have hram (a : Nat) (ha : a < 256) : s.rst.ramRead a = .ok 0 := State.ramRead_of_lt ha
  exact ⟨rfl, rfl, rfl, rfl, rfl, rfl, rfl, rfl, rfl, rfl, rfl, hram,
    rst_readColor s, rst_readColor s _, rfl, fun _ => rfl⟩

end Sys2Proof.Laws
end

section
/-! Proofs of the family 20_memory.md: a write reads back at its address alone, and keeps the canonical form. -/

namespace Sys2Proof.Laws
open Sys2Proof.Machine

/-- A bounded read after a write inside the memory: the value at its address, every other address as before. -/
theorem boundedRead_write {w : Nat} (sp : Space) {size a : Nat} (m : Cells w) (v : BitVec w) (ha : a < size) (b : Nat) :
    boundedRead sp size (Cells.write m a v) b = if b = a then .ok v else boundedRead sp size m b := by
  unfold boundedRead
  rw [Cells.read_write]
  by_cases hb : b = a
  · rw [if_pos hb, if_pos hb, if_neg (by omega)]
  · rw [if_neg hb, if_neg hb]

theorem boundedWrite_of_lt {w : Nat} (sp : Space) {size a : Nat} (m : Cells w) (v : BitVec w) (ha : a < size) :
    boundedWrite sp size m a v = .ok (Cells.write m a v) :=
  if_neg (not_le.2 ha)

theorem boundedWrite_of_le {w : Nat} (sp : Space) {size a : Nat} (m : Cells w) (v : BitVec w) (ha : size ≤ a) :
    boundedWrite sp size m a v = .error (.outOfRange sp a) :=
  if_pos ha

/-- Settles O11: ROM and RAM are each one memory behind a bounds check, so one law of bounded accesses serves both. -/
theorem wordWriteThenRead : Obligations.WordWriteThenRead := by
  refine ⟨fun s a v ha => ?_, fun s a v ha => ?_, fun s a v ha => ?_, fun s a v ha => ?_⟩
  · refine ⟨s.setRom (Cells.write s.rom a v), ?_, boundedRead_write .rom s.rom v ha, rfl⟩
    rw [State.romWrite, boundedWrite_of_lt _ _ _ ha]
    rfl
  · refine ⟨s.setRam (Cells.write s.ram a v), ?_, boundedRead_write .ram s.ram v ha, rfl⟩
    rw [State.ramWrite, boundedWrite_of_lt _ _ _ ha]
    rfl
  · rw [State.romWrite, boundedWrite_of_le _ _ _ ha]
    rfl
  · rw [State.ramWrite, boundedWrite_of_le _ _ _ ha]
    rfl

/-- A colour write leaves everything but the planes alone (R68). -/
theorem setColor_frame (s : State) (p : BitVec 1) (a : CellAddr) (c : Color) :
    s.setColor p a c = { s with plane0 := (s.setColor p a c).plane0, plane1 := (s.setColor p a c).plane1 } := by
  rcases plane_index_cases p with rfl | rfl <;> rfl

/-- Settles O12: a plane write is a colour write behind its check against 64. -/
theorem planeWriteSetsOneCell : Obligations.PlaneWriteSetsOneCell := by
  refine ⟨fun s p a c => ?_, fun s p a c ha => ?_⟩
  · have hin : ¬ a.toNat ≥ Config.cellsPerPlane := not_le.2 a.isLt
    refine ⟨s.setColor p a c, ?_, fun q b => State.setColor_readColor s p q a b c, setColor_frame s p a c⟩
    rw [State.planeWrite_eq, if_neg hin, BitVec.ofNat_toNat, BitVec.setWidth_eq]
  · rw [State.planeWrite_eq, if_pos ha]

/-- A plane write that succeeds is a colour write (R68). -/
theorem planeWrite_ok {s t : State} {p : BitVec 1} {a : Nat} {c : Color} (h : s.planeWrite p a c = .ok t) :
    t = s.setColor p (BitVec.ofNat 6 a) c := by
  rw [State.planeWrite_eq] at h
  split at h
  · cases h
  · cases h
    rfl

/-- Settles O13: a write that succeeds is inside its memory, and a write inside keeps the form. -/
theorem writesKeepCanonicalForm : Obligations.WritesKeepCanonicalForm := by
  rintro s t hs (⟨a, v, h⟩ | ⟨a, v, h⟩ | ⟨p, a, c, h⟩)
  · obtain ⟨ha, rfl⟩ := State.romWrite_ok h
    exact State.setRom_memoryWf v ha hs
  · obtain ⟨ha, rfl⟩ := State.ramWrite_ok h
    exact State.setRam_memoryWf v ha hs
  · obtain rfl := planeWrite_ok h
    exact State.setColor_memoryWf p _ c hs

end Sys2Proof.Laws
end

section
/-! Proofs about single instructions: what each may change, where the post-step update goes, and the instructions whose
statements rest on both. -/

namespace Sys2Proof.Laws
open Sys2Proof.Machine Sys2Proof.Claims

/-! ### What an instruction may change (R46) -/

/-- No instruction changes a memory, FRONT or the host's side (R46). -/
theorem exec_frame {i : Instr} {s t : State} (h : exec i s = .next t) :
    t = { s with acc := t.acc, rb := t.rb, rc := t.rc, jmp := t.jmp, pc := t.pc, outw := t.outw, outbuf := t.outbuf,
                 fault := t.fault, faultKind := t.faultKind, faultAddr := t.faultAddr } := by
  rcases exec_cases i s with ⟨_, -, -, he⟩ | ⟨u, hu, hframe⟩
  · cases h.symm.trans he
    rfl
  · cases h.symm.trans hu
    rw [hframe]

/-- An instruction that writes the fault status is an LDM past the image (R134). -/
theorem exec_fault_status {i : Instr} {s t : State} (h : exec i s = .next t) :
    (∃ opd, i = .ldm opd) ∨ (t.fault = s.fault ∧ t.faultKind = s.faultKind ∧ t.faultAddr = s.faultAddr) := by
  rcases exec_cases i s with ⟨opd, hi, -, -⟩ | ⟨u, hu, hframe⟩
  · exact .inl ⟨opd, hi⟩
  · cases h.symm.trans hu
    rw [hframe]
    exact .inr ⟨rfl, rfl, rfl⟩

/-- Each register and latch changes by the instructions of its row alone (R46). -/
theorem exec_writers {i : Instr} {s t : State} (h : exec i s = .next t) :
    (t.acc ≠ s.acc → i.opcode ∈ [.ldr, .ldm, .inc, .dec, .ldi, .subr, .inp]) ∧
    (t.rb ≠ s.rb → i.opcode = .ldbi) ∧ (t.rc ≠ s.rc → i.opcode = .addr) ∧ (t.jmp ≠ s.jmp → i.opcode = .call) ∧
    (t.outw ≠ s.outw → i.opcode = .out) ∧ (t.outbuf ≠ s.outbuf → i.opcode = .outb) := by
  cases i with
  | ldr _ => rw [loadAcc_frame h]; simp [Instr.opcode]
  | ldm _ => rw [loadAcc_frame h]; simp [Instr.opcode]
  | _ => cases h; simp [Instr.opcode]

/-- Settles O34: the rows of the access table, the fault status and the frame. -/
theorem registerWriters : Obligations.RegisterWriters := by
  intro i s t h
  obtain ⟨hacc, hrb, hrc, hjmp, houtw, houtbuf⟩ := exec_writers h
  refine ⟨hacc, hrb, hrc, hjmp, houtw, houtbuf, fun hst => ?_, exec_frame h⟩
  rcases exec_fault_status h with ⟨opd, rfl⟩ | ⟨hf, hk, ha⟩
  · rfl
  · simp [hf, hk, ha] at hst

/-! ### Loads from the ROM and the input port -/

/-- Settles O16: a slot of the image has both its words below L, so the read of its control word is in range. -/
theorem ldmLoadsControlWord : Obligations.LdmLoadsControlWord := by
  refine ⟨encoded_instrOf .ldm, fun opd s hs hopd => ?_⟩
  have hlen : s.romLen = 2 * s.slots := hs.1.slots_bounds.2.2
  have hin : 2 * opd.toNat < s.romLen := by omega
  exact ⟨_, execLdm_of_lt hin, State.romRead_of_lt hin, nextInOrder_of_pc hs rfl, rfl, memoryUnchanged_of_frame rfl⟩

theorem inSample_of_cons {s : State} {w : Word} {rest : List Word} (h : s.inputs = w :: rest) : s.inSample = w := by
  rw [State.inSample, h]

theorem inSample_of_nil {s : State} (h : s.inputs = []) : s.inSample = Config.freeInput s.samples := by
  rw [State.inSample, h]

/-- Settles O24: INP writes the tick's sample to ACC, and the sample is the first driven word or the free value. -/
theorem inpLoadsSample : Obligations.InpLoadsSample :=
  ⟨encoded_instrOf .inp, fun _ hs =>
    ⟨_, rfl, fun _ _ h => inSample_of_cons h, inSample_of_nil, nextInOrder_of_pc hs rfl, rfl,
      memoryUnchanged_of_frame rfl⟩⟩

/-! ### Control transfer (R118, R199) -/

/-- With an image loaded the post-step update from t goes to `nextSlot` of t (R199). -/
theorem nextPc_eq_nextSlot {s : State} (h : s.ImageLoaded) (p : Word) :
    (s.nextPc p).toNat = nextSlot s.slots p.toNat := by
  have hmax : s.slots ≤ 128 := h.slots_bounds.2.1
  exact State.nextPc_toNat p (by omega)

theorem slotIndex_toNat (opd : Nibble) : (slotIndex opd).toNat = opd.toNat :=
  BitVec.toNat_setWidth_of_le (by decide)

/-- The slot after a slot of the image fits a Word: CALL saves it without a wrap (R194, decision D8). -/
theorem succ_pc_toNat {s : State} (h : s.Ready) : (s.pc + 1#8).toNat = s.pc.toNat + 1 := by
  have hmax : s.slots ≤ 128 := h.1.slots_bounds.2.1
  have hpc := h.2
  have hsum : (s.pc + 1#8).toNat = (s.pc.toNat + 1) % 256 := BitVec.toNat_add s.pc 1#8
  omega

/-- Settles O27: JMPI is a post-step update from its operand. -/
theorem jmpiGoesPastTarget : Obligations.JmpiGoesPastTarget := by
  refine ⟨encoded_instrOf .jmpi, fun opd s hs => ⟨_, rfl, ?_, rfl, memoryUnchanged_of_frame rfl⟩⟩
  rw [State.advance_pc, nextPc_eq_nextSlot hs, slotIndex_toNat]

/-- Settles O28: CALL saves PC + 1, which fits, and then goes on as JMPI does. -/
theorem callSavesReturnSlot : Obligations.CallSavesReturnSlot := by
  refine ⟨encoded_instrOf .call, fun opd s hs =>
    ⟨_, rfl, succ_pc_toNat hs, ?_, rfl, memoryUnchanged_of_frame rfl⟩⟩
  rw [State.advance_pc, State.setJmp_nextPc, nextPc_eq_nextSlot hs.1, slotIndex_toNat]

/-- Settles O29: RET is a post-step update from JMP. -/
theorem retGoesPastReturnSlot : Obligations.RetGoesPastReturnSlot :=
  ⟨encoded_instrOf .ret, fun s hs =>
    ⟨_, rfl, nextPc_eq_nextSlot hs s.jmp, rfl, memoryUnchanged_of_frame rfl⟩⟩

/-- Settles O31: CALL saves the slot after itself, and RET's post-step update goes one further. -/
theorem returnSkipsSlotAfterCall : Obligations.ReturnSkipsSlotAfterCall := by
  intro opd s v hs hlen
  obtain ⟨u, hu, hjmp, -⟩ := callSavesReturnSlot.2 opd s hs
  refine ⟨u, hu, fun hsaved => ?_⟩
  have himage : v.ImageLoaded := by rw [State.ImageLoaded, hlen]; exact hs.1
  have hslots : v.slots = s.slots := by rw [State.slots, hlen]; rfl
  obtain ⟨w, hw, hpc, -⟩ := retGoesPastReturnSlot.2 v himage
  refine ⟨w, hw, ?_⟩
  rw [hpc, hsaved, hjmp, hslots]
  rfl

/-! ### Arithmetic (R144, 90_conflicts.md C4) -/

/-- Settles O33: ADDR leaves ACC alone, so SUBR subtracts RB from the first ACC, not from the sum. -/
theorem addrThenSubr : Obligations.AddrThenSubr :=
  ⟨fun a b => BitVec.add_sub_cancel a b,
    fun s => ⟨_, _, rfl, rfl, sub8_toNat s.acc s.rb, add8_toNat s.acc s.rb, sub_eq_self⟩⟩

end Sys2Proof.Laws
end

section
/-! Proofs of the family 40_cycle.md: what every tick keeps, when it goes on, and what it can raise. -/

namespace Sys2Proof.Laws
open Sys2Proof.Machine Sys2Proof.Claims

/-! ### The slot a tick runs -/

theorem romRead_ok {s : State} {a : Nat} {v : Word} (h : s.romRead a = .ok v) : a < s.romLen := by
  by_contra ha
  cases h.symm.trans (State.romRead_of_le (not_lt.1 ha))

/-- A tick from a state whose slot at PC is `CW IMM`: the instruction, then the end of the tick (R111, R124). -/
theorem step_of_slotAt {s u : State} {cw imm : Word} (hf : s.fault = 0#1) (hslot : SlotAt s cw imm)
    (hu : exec (decodeSlot cw imm) s = .next u) : step s = .next u.endTick := by
  have hlen := romRead_ok hslot.1
  exact step_of_fetch hf (by omega) (State.fetch_ok hslot.1 hslot.2) hu

/-- The same tick, where the instruction is given by its opcode and fields. -/
theorem step_of_opcode {s u : State} {o : Opcode} {opd : Nibble} {imm : Word} (hf : s.fault = 0#1)
    (hslot : SlotAt s (controlWord o.bits opd) imm) (hu : exec (instrOf o opd imm) s = .next u) :
    step s = .next u.endTick :=
  step_of_slotAt hf hslot (by rw [decodeSlot_controlWord, hu])

/-- Settles O37: the end of a tick samples the input and, where no fault was recorded, runs the display update, which is
the write, the swap and the pulse. -/
theorem stepRunsDecodedInstruction : Obligations.StepRunsDecodedInstruction := by
  intro s cw imm i hf hslot hdecode
  obtain ⟨rfl, -⟩ := Prod.mk.inj (Except.ok.inj hdecode)
  obtain ⟨u, hu⟩ := exec_next (decodeSlot cw imm) s
  have hhost : u.inputs = s.inputs ∧ u.samples = s.samples ∧ u.presents = s.presents := by
    rw [exec_frame hu]
    exact ⟨rfl, rfl, rfl⟩
  obtain ⟨hinputs, hsamples, hpresents⟩ := hhost
  refine ⟨u, u.endTick, hu, step_of_slotAt hf hslot hu, fun hfault => ?_, fun hclean => ?_⟩
  · rw [State.endTick_of_fault hfault, ← hinputs, ← hsamples]
    rfl
  · rw [State.endTick_of_clean hclean, State.displayUpdate_eq, State.maybeSwap_eq, State.writePixel_eq,
      ← hinputs, ← hsamples, ← hpresents]
    rfl

/-- Settles O38: both words of a slot of the image lie below L. -/
theorem fetchNeverFaults : Obligations.FetchNeverFaults := by
  intro s hs
  have hin := State.Ready.slot_in_image hs
  have hslot : SlotAt s (Cells.read s.rom (2 * s.pc.toNat)) (Cells.read s.rom (2 * s.pc.toNat + 1)) :=
    ⟨State.romRead_of_lt (by omega), State.romRead_of_lt hin⟩
  exact ⟨_, _, hslot, State.fetch_ok hslot.1 hslot.2⟩

/-! ### What every tick keeps -/

theorem step_ram {s t : State} (h : step s = .next t) : t.ram = s.ram := by
  rcases step_cases h with ⟨-, rfl⟩ | ⟨-, -, e, -, rfl⟩ | ⟨-, -, cw, imm, u, -, hu, rfl⟩
  · rfl
  · simp
  · rw [State.endTick_ram, exec_frame hu]

theorem step_slots {s t : State} (h : step s = .next t) : t.slots = s.slots := by
  rw [State.slots, (step_rom h).2]
  rfl

/-- Settles O36: a RAM read depends on the RAM alone, which a tick keeps, and an empty RAM reads 0. -/
theorem tickNeverWritesRam : Obligations.TickNeverWritesRam := by
  refine ⟨fun s t h a => ?_, fun s t hzero h opd => ⟨_, execLdr_eq opd t, ?_⟩⟩
  · rw [State.ramRead, State.ramRead, step_ram h]
  · rw [State.advance_acc, State.setAcc_acc, step_ram h, hzero, Cells.read_nil]

/-- Where PC can be after a tick: where it was, at slot 0, or where a post-step update goes. -/
theorem step_pc {s t : State} (h : step s = .next t) : t.pc = s.pc ∨ t.pc = 0#8 ∨ ∃ p, t.pc = s.nextPc p := by
  rcases step_cases h with ⟨-, rfl⟩ | ⟨-, -, e, -, rfl⟩ | ⟨-, -, cw, imm, u, -, hu, rfl⟩
  · exact .inl rfl
  · exact .inl (State.endTick_pc _)
  · rw [State.endTick_pc]
    exact (exec_pc hu).imp_left And.left

/-- PC stays a slot, or 0 (R121). -/
theorem step_pcInRange {s t : State} (hmax : s.slots ≤ 256) (hpc : s.PcInRange) (h : step s = .next t) :
    t.PcInRange := by
  rw [State.PcInRange, step_slots h]
  rcases step_pc h with heq | heq | ⟨p, heq⟩
  · rw [heq]; exact hpc
  · exact .inl heq
  · rw [heq]; exact State.nextPc_inRange p hmax

/-- Settles O46: with an image loaded slot 0 exists, so PC in range is PC a slot. -/
theorem pcStaysInRange : Obligations.PcStaysInRange := by
  rintro s t ⟨himage, hpc⟩ h
  obtain ⟨hmin, hmax, -⟩ := himage.slots_bounds
  have himage' : t.ImageLoaded := by rw [State.ImageLoaded, (step_rom h).2]; exact himage
  refine ⟨himage', ?_⟩
  rcases step_pcInRange (by omega) (.inr hpc) h with hzero | hlt
  · rw [hzero, step_slots h]; exact hmin
  · exact hlt

/-- CALL alone writes JMP, with the slot after its own. -/
theorem exec_jmp {i : Instr} {s t : State} (h : exec i s = .next t) : t.jmp = s.jmp ∨ t.jmp = s.pc + 1#8 := by
  by_cases hj : t.jmp = s.jmp
  · exact .inl hj
  · obtain ⟨-, -, -, hcall, -⟩ := exec_writers h
    rw [eq_instrOf_of_opcode (hcall hj)] at h
    cases h
    exact .inr rfl

theorem step_jmp {s t : State} (h : step s = .next t) : t.jmp = s.jmp ∨ (s.romLen ≠ 0 ∧ t.jmp = s.pc + 1#8) := by
  rcases step_cases h with ⟨-, rfl⟩ | ⟨-, -, e, -, rfl⟩ | ⟨-, hlen, cw, imm, u, -, hu, rfl⟩
  · exact .inl rfl
  · exact .inl (State.endTick_jmp _)
  · rw [State.endTick_jmp]
    exact (exec_jmp hu).imp_right fun hj => ⟨hlen, hj⟩

theorem exec_memoryWf {i : Instr} {s t : State} (h : exec i s = .next t) : t.memoryWf = s.memoryWf := by
  rw [exec_frame h]
  rfl

theorem step_memoryWf {s t : State} (hwf : s.memoryWf = true) (h : step s = .next t) : t.memoryWf = true := by
  rcases step_cases h with ⟨-, rfl⟩ | ⟨-, -, e, -, rfl⟩ | ⟨-, -, cw, imm, u, -, hu, rfl⟩
  · exact hwf
  · exact State.endTick_memoryWf hwf
  · exact State.endTick_memoryWf ((exec_memoryWf hu).trans hwf)

/-- What a tick leaves of the fault status: what it was, or OutOfRange recorded (R212). -/
theorem step_faultStatus {s t : State} (h : step s = .next t) :
    (t.fault = s.fault ∧ t.faultKind = s.faultKind ∧ t.faultAddr = s.faultAddr) ∨
      (t.fault = 1#1 ∧ t.faultKind = 1#2) := by
  rcases step_cases h with ⟨-, rfl⟩ | ⟨-, -, e, he, rfl⟩ | ⟨-, -, cw, imm, u, -, hu, rfl⟩
  · exact .inl ⟨rfl, rfl, rfl⟩
  · obtain ⟨a, -, rfl⟩ := State.fetch_error he
    exact .inr ⟨State.endTick_fault _, State.endTick_faultKind _⟩
  · rw [State.endTick_fault, State.endTick_faultKind, State.endTick_faultAddr]
    rcases exec_cases (decodeSlot cw imm) s with ⟨opd, -, -, he⟩ | ⟨v, hv, hframe⟩
    · cases hu.symm.trans he
      exact .inr ⟨rfl, rfl⟩
    · cases hu.symm.trans hv
      rw [hframe]
      exact .inl ⟨rfl, rfl, rfl⟩

/-- The slot after a slot in range is at most N, if there is an image (R194). -/
theorem succ_pc_le_slots {s : State} (himage : s.ImageLoaded) (hpc : s.PcInRange) : (s.pc + 1#8).toNat ≤ s.slots := by
  have hready : s.pc.toNat < s.slots := by
    rcases hpc with hzero | hlt
    · rw [hzero]; exact himage.slots_bounds.1
    · exact hlt
  rw [succ_pc_toNat ⟨himage, hready⟩]
  exact hready

/-- Settles O44: each part of the invariant is kept by what a tick can do to its field. -/
theorem invariantKeptByTick : Obligations.InvariantKeptByTick := by
  rintro s t ⟨hrom, hpc, hjmp, hram, hwf, hfault⟩ h
  have hlen : t.romLen = s.romLen := (step_rom h).2
  have hslots : t.slots = s.slots := step_slots h
  have hmax : s.slots ≤ 256 := by
    rcases hrom with hzero | himage
    · simp [State.slots, hzero]
    · exact himage.slots_bounds.2.1.trans (by decide)
  have hrom' : t.RomLegal := by rw [State.RomLegal, State.ImageLoaded, hlen]; exact hrom
  have hjmp' : t.JmpInRange := by
    rw [State.JmpInRange, hslots]
    rcases step_jmp h with hsame | ⟨hne, hcall⟩
    · rw [hsame]; exact hjmp
    · rw [hcall]; exact succ_pc_le_slots (hrom.resolve_left hne) hpc
  have hram' : t.RamZero := (step_ram h).trans hram
  have hfault' : t.FaultStatusLegal := by
    rcases step_faultStatus h with ⟨hf, hk, ha⟩ | hrecorded
    · rw [State.FaultStatusLegal, hf, hk, ha]; exact hfault
    · exact .inr hrecorded
  exact ⟨hrom', step_pcInRange hmax hpc h, hjmp', hram', step_memoryWf hwf h, hfault'⟩

/-! ### Going on (R126, R127) -/

/-- With an image loaded every tick answers a next state (R126). -/
theorem step_next {s : State} (hlen : s.romLen ≠ 0) : ∃ t, step s = .next t := by
  rcases State.fault_cases s with hf | hf
  · cases hfe : s.fetch with
    | error e => exact ⟨_, step_of_fetch_error hf hlen hfe⟩
    | ok slot =>
      obtain ⟨u, hu⟩ := exec_next (decodeSlot slot.1 slot.2) s
      exact ⟨_, step_of_fetch hf hlen hfe hu⟩
  · exact ⟨s, step_of_fault hf⟩

/-- Outside the fault state a tick takes one input sample (R114, R72). -/
theorem step_sampled {s t : State} (hf : s.fault = 0#1) (h : step s = .next t) :
    t.inputs = s.inputs.tail ∧ t.samples = s.samples + 1 := by
  rcases step_cases h with ⟨hf', -⟩ | ⟨-, -, e, -, rfl⟩ | ⟨-, -, cw, imm, u, -, hu, rfl⟩
  · exact absurd (hf.symm.trans hf') (by decide)
  · simp
  · rw [State.endTick_inputs, State.endTick_samples, exec_frame hu]
    exact ⟨rfl, rfl⟩

theorem run_next (k : Nat) {s : State} (hlen : s.romLen ≠ 0) : ∃ t, core.run k s = .next t := by
  induction k generalizing s with
  | zero => exact ⟨s, rfl⟩
  | succ k ih =>
    obtain ⟨t, ht⟩ := step_next hlen
    rw [run_succ_of_step k ht]
    exact ih (by rw [(step_rom ht).2]; exact hlen)

/-- Settles O39: every tick answers with an image loaded, and one outside the fault state counts a sample. -/
theorem neverHalts : Obligations.NeverHalts := by
  refine ⟨fun k s hlen => run_next k hlen, fun s hlen => ?_, fun s hlen hf => ?_⟩
  · obtain ⟨t, ht⟩ := step_next hlen
    refine ⟨t, ht, fun hsame => ?_, fun hf => ?_⟩
    · refine (State.fault_cases s).resolve_left fun hf => ?_
      have hcount := (step_sampled hf ht).2
      rw [hsame] at hcount
      omega
    · cases ht.symm.trans (step_of_fault hf)
      rfl
  · simp [step, State.tick, hf, hlen]

/-- Settles O40: a tick in the fault state answers the same state, so every further one does. -/
theorem faultStateIsSticky : Obligations.FaultStateIsSticky := by
  intro k s hf
  induction k with
  | zero => exact run_zero s
  | succ k ih => rw [run_succ_of_step k (step_of_fault hf), ih]

/-! ### Faults -/

/-- Settles O42: what is recorded is the error's kind and info, as the fault status is written. -/
theorem takingFaultRecordsIt : Obligations.TakingFaultRecordsIt :=
  ⟨fun _ a _ => ⟨rfl, BitVec.toNat_ofNat a 8⟩,
    fun opc _ => ⟨rfl, BitVec.toNat_setWidth_of_le (by decide)⟩,
    fun _ _ => ⟨rfl, rfl⟩⟩

/-- The address LDM reads fits FAULT_ADDR: it is recorded untruncated (R134, R212). -/
theorem ldm_faultAddr (opd : Nibble) : (Fault.info (.outOfRange .rom (2 * opd.toNat))).toNat = 2 * opd.toNat := by
  have hopd := opd.isLt
  rw [Fault.info, BitVec.toNat_ofNat]
  omega

/-- Settles O17: LDM takes the fault of its read, and the end of a tick that took one only samples. -/
theorem ldmPastImageFaults : Obligations.LdmPastImageFaults := by
  refine ⟨fun opd s hlen => ?_, fun opd imm s hf hslot hlen => ?_⟩
  · exact ⟨_, execLdm_of_le hlen, rfl, rfl, ldm_faultAddr opd, rfl, fun _ => rfl, fun _ => rfl, fun _ _ => rfl⟩
  · have hstep := step_of_opcode (o := .ldm) hf hslot (execLdm_of_le hlen)
    rw [State.endTick_of_fault (State.takeFault_fault _ _)] at hstep
    exact ⟨_, hstep, rfl, rfl, ldm_faultAddr opd, rfl⟩

/-- Settles O43: the fetch of a ready state raises nothing, so what raised is an instruction, and only LDM does. -/
theorem onlyLdmFaults : Obligations.OnlyLdmFaults := by
  intro s t hs hf h hfault
  obtain ⟨cw, imm, hslot, -⟩ := fetchNeverFaults s hs
  obtain ⟨u, hu⟩ := exec_next (decodeSlot cw imm) s
  cases h.symm.trans (step_of_slotAt hf hslot hu)
  rw [State.endTick_fault] at hfault
  obtain ⟨opd, hi, hlen, rfl⟩ := exec_raises hu hf hfault
  have hslots : s.romLen = 2 * s.slots := hs.1.slots_bounds.2.2
  refine ⟨cw, imm, opd, hslot, hi, by omega, ?_⟩
  simp only [State.endTick_faultKind, State.endTick_faultAddr, State.endTick_pc]
  exact ⟨rfl, ldm_faultAddr opd, rfl⟩

/-! ### Straight code (R123) -/

/-- An instruction that transfers no control and does not raise goes on in order. -/
theorem exec_straight {i : Instr} {s t : State} (h : exec i s = .next t)
    (hctl : i.opcode ∉ [.jmpi, .call, .ret, .stop]) (hldm : ∀ opd, i = .ldm opd → 2 * opd.toNat < s.romLen) :
    t.pc = s.nextPc s.pc ∧ t.fault = s.fault := by
  cases i with
  | ldr opd => cases h.symm.trans (execLdr_eq opd s); exact ⟨rfl, rfl⟩
  | ldm opd => cases h.symm.trans (execLdm_of_lt (hldm opd rfl)); exact ⟨rfl, rfl⟩
  | jmpi _ => exact absurd (by simp [Instr.opcode]) hctl
  | call _ => exact absurd (by simp [Instr.opcode]) hctl
  | ret => exact absurd (by simp [Instr.opcode]) hctl
  | stop => exact absurd (by simp [Instr.opcode]) hctl
  | _ => cases h; exact ⟨rfl, rfl⟩

/-- No slot of the image transfers control or holds an LDM past the image: the premise of R123 on the slots. -/
def StraightCode (s : State) : Prop :=
  ∀ k cw imm, k < s.slots → s.romRead (2 * k) = .ok cw →
    (decodeSlot cw imm).opcode ∉ [.jmpi, .call, .ret, .stop] ∧
    ∀ opd, decodeSlot cw imm = .ldm opd → opd.toNat < s.slots

theorem step_straightCode {s t : State} (hs : StraightCode s) (h : step s = .next t) : StraightCode t := by
  obtain ⟨hlen, hread⟩ := tickNeverWritesRom s t h
  have hslots := step_slots h
  intro k cw imm hk hcw
  rw [hslots] at hk ⊢
  exact hs k cw imm hk (hread (2 * k) ▸ hcw)

/-- A tick of straight code goes on in order and raises nothing. -/
theorem step_of_straightCode {s : State} (hs : s.Ready) (hf : s.fault = 0#1) (hcode : StraightCode s) :
    ∃ t, step s = .next t ∧ t.pc = s.nextPc s.pc ∧ t.fault = 0#1 := by
  obtain ⟨cw, imm, hslot, -⟩ := fetchNeverFaults s hs
  obtain ⟨u, hu⟩ := exec_next (decodeSlot cw imm) s
  obtain ⟨hctl, hldm⟩ := hcode _ cw imm hs.2 hslot.1
  have hslots : s.romLen = 2 * s.slots := hs.1.slots_bounds.2.2
  obtain ⟨hpc, hclean⟩ := exec_straight hu hctl fun opd hi => by have := hldm opd hi; omega
  exact ⟨_, step_of_slotAt hf hslot hu, by rw [State.endTick_pc, hpc], by rw [State.endTick_fault, hclean, hf]⟩

/-- From slot N - k - 1, straight code is back at slot 0 after k + 1 ticks. -/
theorem run_straightCode (k : Nat) {s : State} (hs : s.Ready) (hf : s.fault = 0#1) (hcode : StraightCode s)
    (hk : s.pc.toNat + (k + 1) = s.slots) : ∃ t, core.run (k + 1) s = .next t ∧ t.pc = 0#8 ∧ t.fault = 0#1 := by
  induction k generalizing s with
  | zero =>
    obtain ⟨t, ht, hpc, hclean⟩ := step_of_straightCode hs hf hcode
    have hlast : s.nextPc s.pc = 0#8 := if_pos (by omega)
    exact ⟨t, run_succ_of_step 0 ht, hpc.trans hlast, hclean⟩
  | succ k ih =>
    obtain ⟨t, ht, hpc, hclean⟩ := step_of_straightCode hs hf hcode
    have hnext : t.pc.toNat = s.pc.toNat + 1 := by
      rw [hpc, nextPc_eq_nextSlot hs.1]
      exact if_neg (by omega)
    rw [run_succ_of_step (k + 1) ht]
    exact ih (pcStaysInRange s t hs ht) hclean (step_straightCode hcode ht) (by rw [hnext, step_slots ht]; omega)

/-- Settles O47: N ticks from slot 0 are N - 1 ticks in order and one that wraps. -/
theorem straightCodeReturnsToSlotZero : Obligations.StraightCodeReturnsToSlotZero := by
  intro s himage hf hpc hcode
  have hmin : 1 ≤ s.slots := himage.slots_bounds.1
  have hzero : s.pc.toNat = 0 := by rw [hpc]; rfl
  obtain ⟨k, hk⟩ : ∃ k, s.slots = k + 1 := ⟨s.slots - 1, by omega⟩
  rw [hk]
  exact run_straightCode k ⟨himage, by omega⟩ hf hcode (by omega)

end Sys2Proof.Laws
end

section
/-! Proofs about the display: what a tick writes to the planes, the latches, the pulses and the pixel codec. -/

namespace Sys2Proof.Laws
open Sys2Proof.Machine Sys2Proof.Claims

/-! ### The planes after a tick -/

/-- Settles O48: the write and the swap of a completed tick. -/
theorem completedTickUpdatesDisplay : Obligations.CompletedTickUpdatesDisplay :=
  fun _ _ h hs ht => ⟨step_completed_readColor h hs ht, step_completed_front h hs ht⟩

/-- What any tick does to a cell: nothing, or the pixel write of OUTW to the plane that was back. -/
theorem step_readColor_cases {s t : State} (h : step s = .next t) (p : BitVec 1) (a : CellAddr) :
    t.readColor p a = s.readColor p a ∨
      (t.outw ≠ 0#8 ∧ p = 1#1 - s.front ∧ a = pixelAddr t.outw ∧ t.readColor p a = pixelColor t.outw) := by
  rcases State.fault_cases s with hs | hs
  · rcases State.fault_cases t with ht | ht
    · rw [step_completed_readColor h hs ht]
      split
      · next hw => exact .inr ⟨hw.1, hw.2.1, hw.2.2, rfl⟩
      · exact .inl rfl
    · obtain ⟨-, ⟨-, -, hplanes⟩, -⟩ := faultingTickWritesNothing.2 s t h hs ht
      exact .inl (hplanes p a)
  · cases h.symm.trans (step_of_fault hs)
    exact .inl rfl

/-- Settles O49: pixel writes go to the back plane, which is never the front one. -/
theorem frontPlaneNeverWritten : Obligations.FrontPlaneNeverWritten := by
  intro s t h
  have hfront (a : CellAddr) : t.readColor s.front a = s.readColor s.front a :=
    (step_readColor_cases h s.front a).resolve_right fun hw => other_plane_ne s.front hw.2.1.symm
  exact ⟨hfront, fun hsame a => by rw [State.frontColor, hsame, hfront a]; rfl⟩

/-! ### The pixel word (R171, R179) -/

/-- A word is the sentinel exactly if it names cell 0 and black (decisions D2, D11). -/
theorem eq_sentinel_iff : ∀ w : Word, w = 0#8 ↔ pixelAddr w = 0#6 ∧ pixelColor w = 0#2 := by decide

/-- The pixel word of a cell and a colour (R171). -/
def cellWord (a : CellAddr) (c : Color) : Word := a ++ c

theorem pixel_cellWord : ∀ a c, pixelAddr (cellWord a c) = a ∧ pixelColor (cellWord a c) = c := by decide

/-- Settles O53: a tick that wrote cell 0 did so with a word that is no sentinel, so with a colour that is not black. -/
theorem cellZeroNeverBlackAgain : Obligations.CellZeroNeverBlackAgain := by
  refine ⟨fun s t p h hcell => ?_, fun a c hne => ⟨cellWord a c, ?_, pixel_cellWord a c⟩⟩
  · rcases step_readColor_cases h p 0#6 with hsame | ⟨hword, -, haddr, hcolor⟩
    · rw [hsame]; exact hcell
    · rw [hcolor]
      exact fun hblack => hword ((eq_sentinel_iff t.outw).2 ⟨haddr.symm, hblack⟩)
  · obtain ⟨haddr, hcolor⟩ := pixel_cellWord a c
    rw [ne_eq, eq_sentinel_iff, haddr, hcolor]
    exact fun hzero => hne.elim (fun ha => ha hzero.1) (fun hc => hc hzero.2)

/-- Settles O52: the fields and the address are slices of the eight bits, so each clause is a check of every word. -/
theorem pixelCodecRoundTrip : Obligations.PixelCodecRoundTrip := by
  refine ⟨?_, ?_, ?_⟩ <;> decide

/-! ### Pulses (R181) -/

theorem endTick_presents (s : State) : s.endTick.presents = if s.fault = 0#1 then s.presents + 1 else s.presents := by
  rw [State.endTick_eq]
  rcases State.fault_cases s with hf | hf <;> simp [hf]

/-- Settles O54: the pulse is the end of a tick's, given where no fault is recorded. -/
theorem onePulsePerCompletedTick : Obligations.OnePulsePerCompletedTick := by
  intro s t h
  rcases step_cases h with ⟨hf, rfl⟩ | ⟨-, -, e, -, rfl⟩ | ⟨-, -, cw, imm, u, -, hu, rfl⟩
  · rw [if_neg (by rw [hf]; decide)]
  · rw [endTick_presents, State.endTick_fault]
    rfl
  · have hkept : u.presents = s.presents := by rw [exec_frame hu]
    rw [endTick_presents, State.endTick_fault, hkept]

/-! ### OUT and OUTB -/

/-- Settles O25: OUT alone writes OUTW, and the pixel of its tick is that of the ACC it copied. -/
theorem outCopiesAcc : Obligations.OutCopiesAcc := by
  refine ⟨encoded_instrOf .out, fun s hs => ?_, fun i s t h hne => ?_, fun opd imm s hf hslot => ?_⟩
  · exact ⟨_, rfl, rfl, nextInOrder_of_pc hs rfl, rfl, memoryUnchanged_of_frame rfl⟩
  · obtain ⟨-, -, -, -, hout, -⟩ := exec_writers h
    exact eq_instrOf_of_opcode (hout hne)
  · have hstep := step_of_opcode (o := .out) hf hslot rfl
    have houtw : (((s.setOutw s.acc).advance s.pc).endTick).outw = s.acc := State.endTick_outw _
    have hcolor := step_completed_readColor hstep hf ((State.endTick_fault _).trans hf)
    rw [houtw] at hcolor
    refine ⟨_, hstep, houtw, fun hacc p a => ?_, fun hacc => ?_⟩
    · rw [hcolor, if_neg fun hw => hw.1 hacc]
    · rw [hcolor, if_pos ⟨by rw [hacc]; decide, rfl, by rw [hacc]; decide⟩, hacc]
      decide

/-- Settles O26: OUTB alone writes OUTBUF, and every completed tick looks at OUTBUF for its swap. -/
theorem outbWritesSwapWord : Obligations.OutbWritesSwapWord := by
  refine ⟨encoded_instrOf .outb, fun imm s hs => ?_, fun i s t h hne => ?_, fun opd imm s hf hslot => ?_,
    fun s t h hs ht hbuf => ?_⟩
  · exact ⟨_, rfl, rfl, nextInOrder_of_pc hs rfl, rfl, memoryUnchanged_of_frame rfl⟩
  · obtain ⟨-, -, -, -, -, houtb⟩ := exec_writers h
    exact ⟨_, eq_instrOf_of_opcode (houtb hne)⟩
  · have hstep := step_of_opcode (o := .outb) hf hslot rfl
    exact ⟨_, hstep, State.endTick_outbuf _, by
      rw [step_completed_front hstep hf ((State.endTick_fault _).trans hf), State.endTick_outbuf]; rfl⟩
  · rw [step_completed_front h hs ht, if_pos hbuf]

end Sys2Proof.Laws
end

section
/-! Proofs about what the machine cannot observe: RC, the display, and the input port except by INP. Then the words the
host drives. -/

namespace Sys2Proof.Laws
open Sys2Proof.Machine Sys2Proof.Claims

/-! ### RC (R33, R48) -/

/-- No instruction reads RC: from a state with another RC it writes the same to every other field. -/
theorem exec_setRc {i : Instr} {s u : State} (v : Word) (h : exec i s = .next u) :
    ∃ v', exec i (s.setRc v) = .next (u.setRc v') := by
  have hload (r : Except Fault Word) (h : loadAcc r s = .next u) : loadAcc r (s.setRc v) = .next (u.setRc v) := by
    cases r <;> cases h <;> rfl
  cases i with
  | ldr _ => exact ⟨v, hload _ h⟩
  | ldm _ => exact ⟨v, hload _ h⟩
  | addr => cases h; exact ⟨add8 s.acc s.rb, rfl⟩
  | _ => cases h; exact ⟨v, rfl⟩

theorem endTick_setRc (s : State) (v : Word) : (s.setRc v).endTick = s.endTick.setRc v := by
  rw [State.endTick_eq, State.endTick_eq]
  rfl

/-- Settles O55: the fetch, the fault and the end of a tick do not read RC either. -/
theorem rcIsUnobservable : Obligations.RcIsUnobservable := by
  intro s t v h
  rcases step_cases h with ⟨hf, rfl⟩ | ⟨hf, hlen, e, he, rfl⟩ | ⟨hf, hlen, cw, imm, u, hfe, hu, rfl⟩
  · exact ⟨v, step_of_fault hf⟩
  · have hstep : step (s.setRc v) = .next ((s.setRc v).takeFault e).endTick := step_of_fetch_error hf hlen he
    exact ⟨v, hstep.trans (congrArg _ (endTick_setRc (s.takeFault e) v))⟩
  · obtain ⟨v', hv'⟩ := exec_setRc v hu
    exact ⟨v', endTick_setRc u v' ▸ step_of_fetch hf hlen hfe hv'⟩

/-! ### The display (R48) -/

/-- A state with other planes, FRONT, latches and count of pulses. -/
def redisplay (p0 p1 : Plane) (f : BitVec 1) (w b : Word) (n : Nat) (s : State) : State :=
  { s with plane0 := p0, plane1 := p1, front := f, outw := w, outbuf := b, presents := n }

/-- Two states with the same CPU registers, PC and fault status. -/
def SameCpu (u t : State) : Prop :=
  u.acc = t.acc ∧ u.rb = t.rb ∧ u.rc = t.rc ∧ u.jmp = t.jmp ∧ u.pc = t.pc ∧
    u.fault = t.fault ∧ u.faultKind = t.faultKind ∧ u.faultAddr = t.faultAddr

theorem sameCpu_redisplay (p0 p1 : Plane) (f : BitVec 1) (w b : Word) (n : Nat) (s : State) :
    SameCpu (redisplay p0 p1 f w b n s) s :=
  ⟨rfl, rfl, rfl, rfl, rfl, rfl, rfl, rfl⟩

/-- The end of a tick changes nothing of the CPU. -/
theorem sameCpu_endTick {u t : State} (h : SameCpu u t) : SameCpu u.endTick t.endTick := by
  simpa [SameCpu] using h

/-- No instruction reads the latches, FRONT or the planes. -/
theorem exec_redisplay {i : Instr} {s t : State} (p0 p1 : Plane) (f : BitVec 1) (w b : Word) (n : Nat)
    (h : exec i s = .next t) : ∃ u, exec i (redisplay p0 p1 f w b n s) = .next u ∧ SameCpu u t := by
  have hload (r : Except Fault Word) (h : loadAcc r s = .next t) :
      loadAcc r (redisplay p0 p1 f w b n s) = .next (redisplay p0 p1 f w b n t) := by
    cases r <;> cases h <;> rfl
  cases i with
  | ldr _ => exact ⟨_, hload _ h, sameCpu_redisplay ..⟩
  | ldm _ => exact ⟨_, hload _ h, sameCpu_redisplay ..⟩
  | _ => cases h; exact ⟨_, rfl, rfl, rfl, rfl, rfl, rfl, rfl, rfl, rfl⟩

/-- Settles O56: the fetch reads the ROM and PC alone, the instruction reads no display field, and the end of a tick
changes nothing of the CPU. -/
theorem displayNeverAffectsCpu : Obligations.DisplayNeverAffectsCpu := by
  intro s t p0 p1 f w b n h
  change ∃ u, step (redisplay p0 p1 f w b n s) = .next u ∧ SameCpu u t
  rcases step_cases h with ⟨hf, rfl⟩ | ⟨hf, hlen, e, he, rfl⟩ | ⟨hf, hlen, cw, imm, u, hfe, hu, rfl⟩
  · exact ⟨_, step_of_fault hf, sameCpu_redisplay ..⟩
  · have hsame : SameCpu ((redisplay p0 p1 f w b n s).takeFault e) (s.takeFault e) :=
      ⟨rfl, rfl, rfl, rfl, rfl, rfl, rfl, rfl⟩
    exact ⟨_, step_of_fetch_error hf hlen he, sameCpu_endTick hsame⟩
  · obtain ⟨u', hu', hsame⟩ := exec_redisplay p0 p1 f w b n hu
    exact ⟨_, step_of_fetch hf hlen hfe hu', sameCpu_endTick hsame⟩

/-! ### The input port (R72, R114, decision D15) -/

/-- A state whose host drives other words. -/
def withInput (ins : List Word) (n : Nat) (s : State) : State := { s with inputs := ins, samples := n }

/-- No instruction but INP reads the input sample. -/
theorem exec_withInput {i : Instr} {s u : State} (ins : List Word) (n : Nat) (hi : i.opcode ≠ .inp)
    (h : exec i s = .next u) : exec i (withInput ins n s) = .next (withInput ins n u) := by
  have hload (r : Except Fault Word) (h : loadAcc r s = .next u) :
      loadAcc r (withInput ins n s) = .next (withInput ins n u) := by
    cases r <;> cases h <;> rfl
  cases i with
  | inp => exact absurd rfl hi
  | ldr _ => exact hload _ h
  | ldm _ => exact hload _ h
  | _ => cases h; rfl

theorem endTick_withInput (ins : List Word) (n : Nat) (s : State) :
    (withInput ins n s).endTick = withInput ins.tail (n + 1) s.endTick := by
  rw [State.endTick_eq, State.endTick_eq]
  rfl

/-- Settles O57: the slot is the same, its instruction does not read the sample, and the end of the tick only moves the
port on. -/
theorem onlyInpReadsInput : Obligations.OnlyInpReadsInput := by
  intro s t cw imm ins n hf hslot hi h
  obtain ⟨u, hu⟩ := exec_next (decodeSlot cw imm) s
  cases h.symm.trans (step_of_slotAt hf hslot hu)
  have hstep := step_of_slotAt (s := withInput ins n s) hf hslot (exec_withInput ins n hi hu)
  rw [endTick_withInput] at hstep
  exact hstep

/-- Settles O59: driven words queue up in `inputs`; INP reads the first, and a tick moves on to the second. -/
theorem inpLoadsDrivenOrDefaultWord : Obligations.InpLoadsDrivenOrDefaultWord := by
  refine ⟨fun s v vs _ hempty => ⟨_, rfl, ?_⟩, fun s t v w vs hempty hf h => ?_, fun _ _ => rfl⟩
  · have hqueue : (s.drive (v :: vs)).inputs = hostWord v :: vs.map hostWord := by rw [State.drive_inputs, hempty]; rfl
    exact (inSample_of_cons hqueue).trans (by cases v <;> rfl)
  · have hqueue : t.inputs = hostWord w :: vs.map hostWord := by
      rw [(step_sampled (s := s.drive (v :: w :: vs)) hf h).1, State.drive_inputs, hempty]
      rfl
    exact (inSample_of_cons hqueue).trans (by cases w <;> rfl)

end Sys2Proof.Laws
end
